-- ==== Sys2Proof/Word.lean ====
section
/-! DEFINITION. The widths of the engine's words (00_scope.md R7, R8): bit 0 is the least significant bit. -/

namespace Sys2Proof

/-- A command word `cmd`: 32 bits (30_encoding.md R70, R71). -/
abbrev CmdWord := BitVec 32

/-- An operand word `arg`: 64 bits (30_encoding.md R70, R77). -/
abbrev ArgWord := BitVec 64

/-- A response result `rsp_result`: 64 bits (30_encoding.md R80, R81). -/
abbrev ResultWord := BitVec 64

/-- The pattern of an IEEE 754 binary64 number: bit 63 the sign, bits 62:52 the exponent, bits 51:0
the fraction (20_memory.md R67). -/
abbrev F64 := BitVec 64

/-- A 24-bit frame pattern, bit 23 the first bit on the wire (20_memory.md R66). -/
abbrev FramePattern := BitVec 24

/-- The level of a line, or a 1-bit register: `true` is 1 (high), `false` is 0 (low). -/
abbrev Level := Bool

end Sys2Proof
end

