-- ==== Sys2Proof/Syntax.lean ====
section
/-! DEFINITION. The nine commands (30_encoding.md R72), one constructor for each row of the opcode table. An
integer operand is the number its field holds ("read as a number, not as a code", R75); a default is applied
where the operand is used (Machine/Operands.lean). -/

namespace Sys2Proof

inductive Instr where
  /-- `INIT g` (43_lifecycle.md R210): `g` is the field `G`, 0 standing for 128. -/
  | init (g : Nat)
  /-- `TARE n` (42_calibration.md R172): `n` is the field `N`, 0 standing for 10. -/
  | tare (n : Nat)
  /-- `CALIBRATE n, w` (42_calibration.md R173): `n` as in TARE, `w` the binary64 pattern in `arg`. -/
  | calibrate (n : Nat) (w : F64)
  /-- `GET_WEIGHT` (42_calibration.md R174). -/
  | getWeight
  /-- `GET_GAIN` (41_gain_power.md R140). -/
  | getGain
  /-- `SET_GAIN g` (41_gain_power.md R141): `g` is the field `G`. -/
  | setGain (g : Nat)
  /-- `GET_PD` (41_gain_power.md R142). -/
  | getPd
  /-- `SET_PD v` (41_gain_power.md R143): `v` is the field `V`. -/
  | setPd (v : Nat)
  /-- `CLEANUP` (43_lifecycle.md R211). -/
  | cleanup
  deriving DecidableEq, Repr

end Sys2Proof
end

