-- ==== Sys2Proof/WellFormed.lean ====
section
/-! DEFINITION. Which terms of `Instr` are commands: each integer operand fits its field. 30_encoding.md R84:
"The assembler refuses an operand that does not fit its field (n > 255, g > 255, v > 1)". -/

namespace Sys2Proof

/-- The operand of an 8-bit field fits it. -/
def fitsByte (x : Nat) : Bool := decide (x ≤ 255)

/-- The operand of the 1-bit field `V` fits it. -/
def fitsBit (x : Nat) : Bool := decide (x ≤ 1)

/-- The command is one the assembler of 30_encoding.md R84 accepts. -/
def Instr.wellFormed : Instr → Bool
  | .init g => fitsByte g
  | .tare n => fitsByte n
  | .calibrate n _ => fitsByte n
  | .getWeight => true
  | .getGain => true
  | .setGain g => fitsByte g
  | .getPd => true
  | .setPd v => fitsBit v
  | .cleanup => true

end Sys2Proof
end

