-- ==== Sys2Proof/Decode.lean ====
section
/-! DEFINITION. The command encoding (30_encoding.md): the fields of R71, the match and mask of R73, the decoder
(total, R82; it rejects by name what R79 calls illegal), and the encoder (R83). -/

namespace Sys2Proof

/-- A row of the table of R73. -/
structure OpcodeRow where
  mnemonic : String
  opcode : BitVec 4
  pattern : CmdWord
  mask : CmdWord
  deriving DecidableEq, Repr

def rowInit : OpcodeRow := ⟨"INIT", 0x1, 0x00000001, 0xFF00FFFF⟩
def rowTare : OpcodeRow := ⟨"TARE", 0x2, 0x00000002, 0xFFFF00FF⟩
def rowCalibrate : OpcodeRow := ⟨"CALIBRATE", 0x3, 0x00000003, 0xFFFF00FF⟩
def rowGetWeight : OpcodeRow := ⟨"GET_WEIGHT", 0x4, 0x00000004, 0xFFFFFFFF⟩
def rowGetGain : OpcodeRow := ⟨"GET_GAIN", 0x5, 0x00000005, 0xFFFFFFFF⟩
def rowSetGain : OpcodeRow := ⟨"SET_GAIN", 0x6, 0x00000006, 0xFF00FFFF⟩
def rowGetPd : OpcodeRow := ⟨"GET_PD", 0x7, 0x00000007, 0xFFFFFFFF⟩
def rowSetPd : OpcodeRow := ⟨"SET_PD", 0x8, 0x00000008, 0xFEFFFFFF⟩
def rowCleanup : OpcodeRow := ⟨"CLEANUP", 0x9, 0x00000009, 0xFFFFFFFF⟩

/-- The table of R73, in its order. -/
def opcodeRows : List OpcodeRow :=
  [rowInit, rowTare, rowCalibrate, rowGetWeight, rowGetGain, rowSetGain, rowGetPd, rowSetPd, rowCleanup]

/-- The row of a command. -/
def rowOf : Instr → OpcodeRow
  | .init _ => rowInit
  | .tare _ => rowTare
  | .calibrate _ _ => rowCalibrate
  | .getWeight => rowGetWeight
  | .getGain => rowGetGain
  | .setGain _ => rowSetGain
  | .getPd => rowGetPd
  | .setPd _ => rowSetPd
  | .cleanup => rowCleanup

/-- The bits of the fields an opcode uses, `OP` among them (R71, R73); every other bit is must-be-zero for it. -/
def usedBits : BitVec 4 → CmdWord
  | 0x1 => 0x00FF000F
  | 0x2 => 0x0000FF0F
  | 0x3 => 0x0000FF0F
  | 0x6 => 0x00FF000F
  | 0x8 => 0x0100000F
  | _ => 0x0000000F

/-- R73: "the word is that command exactly when `(cmd & mask) = match`". -/
def OpcodeRow.accepts (r : OpcodeRow) (cmd : CmdWord) : Bool := cmd &&& r.mask == r.pattern

/-- Field `OP`, bits 3:0 (R71). -/
def fieldOp (cmd : CmdWord) : BitVec 4 := cmd.extractLsb' 0 4

/-- Field `N`, bits 15:8, as a number (R71, R74). -/
def fieldN (cmd : CmdWord) : Nat := (cmd.extractLsb' 8 8).toNat

/-- Field `G`, bits 23:16, as a number (R71, R75). -/
def fieldG (cmd : CmdWord) : Nat := (cmd.extractLsb' 16 8).toNat

/-- Field `V`, bit 24, as a number (R71, R76). -/
def fieldV (cmd : CmdWord) : Nat := (cmd.extractLsb' 24 1).toNat

/-- Why a word is illegal (R79). -/
inductive DecodeError where
  /-- `OP` is 0x0 or 0xA to 0xF. -/
  | reservedOpcode
  /-- `OP` is assigned and a must-be-zero bit of it is 1. -/
  | mustBeZeroBit
  deriving DecidableEq, Repr

/-- The decoder: each word, with any operand word, is one of the nine commands or illegal (R82). `arg` is read
for CALIBRATE only (R77, R78). -/
def decode (cmd : CmdWord) (arg : ArgWord) : Except DecodeError Instr :=
  if rowInit.accepts cmd then .ok (.init (fieldG cmd))
  else if rowTare.accepts cmd then .ok (.tare (fieldN cmd))
  else if rowCalibrate.accepts cmd then .ok (.calibrate (fieldN cmd) arg)
  else if rowGetWeight.accepts cmd then .ok .getWeight
  else if rowGetGain.accepts cmd then .ok .getGain
  else if rowSetGain.accepts cmd then .ok (.setGain (fieldG cmd))
  else if rowGetPd.accepts cmd then .ok .getPd
  else if rowSetPd.accepts cmd then .ok (.setPd (fieldV cmd))
  else if rowCleanup.accepts cmd then .ok .cleanup
  else if opcodeRows.any (fun r => r.opcode == fieldOp cmd) then .error .mustBeZeroBit
  else .error .reservedOpcode

/-- The command word of a command: the word column of R83. -/
def encodeWord : Instr → CmdWord
  | .init g => BitVec.ofNat 32 (0x00000001 + g * 2 ^ 16)
  | .tare n => BitVec.ofNat 32 (0x00000002 + n * 2 ^ 8)
  | .calibrate n _ => BitVec.ofNat 32 (0x00000003 + n * 2 ^ 8)
  | .getWeight => 0x00000004
  | .getGain => 0x00000005
  | .setGain g => BitVec.ofNat 32 (0x00000006 + g * 2 ^ 16)
  | .getPd => 0x00000007
  | .setPd v => BitVec.ofNat 32 (0x00000008 + v * 2 ^ 24)
  | .cleanup => 0x00000009

/-- The operand word of a command: `arg = bits(w)` for CALIBRATE (R83); 0 for the others, which ignore it (R78). -/
def encodeArg : Instr → ArgWord
  | .calibrate _ w => w
  | .init _ | .tare _ | .getWeight | .getGain | .setGain _ | .getPd | .setPd _ | .cleanup => 0

/-- The two words of a command, as one transaction takes them (R70). -/
def encode (i : Instr) : CmdWord × ArgWord := (encodeWord i, encodeArg i)

/-- The command word in a table row's number: its low 32 bits. Bits from `nbits` up count as 0. -/
def tableCmd (nbits w : Nat) : CmdWord := BitVec.ofNat 32 (w % 2 ^ nbits)

/-- The operand word in a table row's number: the 64 bits above the command word (0 where the row gives none, log 14). -/
def tableArg (nbits w : Nat) : ArgWord := BitVec.ofNat 64 (w % 2 ^ nbits / 2 ^ 32)

/-- What the decoder reads from an opcode-table word: bit 0 is bit 0 of the command word, and the operand word's
bits count on from bit 32. -/
def decodeTableWord (nbits w : Nat) : Option Instr :=
  match decode (tableCmd nbits w) (tableArg nbits w) with
  | .ok i => some i
  | .error _ => none

end Sys2Proof
end

