-- ==== Sys2Proof/Config.lean ====
section
/-! DEFINITION. What an implementation fixes (the OPEN parameters of 00_scope.md R6), and the free
values: constants without a body, so that no proof can see what they are. -/

namespace Sys2Proof

/-- The OPEN parameters of 00_scope.md R6, less `P_PORTS`, which is the number of ports a state has (log 5). Times are
whole numbers of a unit, of which a microsecond has `perMicrosecond` (log 7). "A model takes each as an argument": a
state carries them, no step writes them, and a statement about every state holds for every value. -/
structure Params where
  /-- Units of time in a microsecond: at least 1, and as many as the times need (log 7). -/
  perMicrosecond : Nat
  /-- `T_SCK_HIGH`: clock high time of every data and trailing pulse. -/
  tSckHigh : Nat
  /-- `T_SCK_LOW`: clock low time before each data sample and after each trailing pulse. -/
  tSckLow : Nat
  /-- `T_POLL`: interval between data-ready polls. -/
  tPoll : Nat
  /-- `T_PD_HOLD`: clock high hold of the power-down sequence. -/
  tPdHold : Nat
  /-- `F_CLK`: engine clock frequency; "no rule depends on it", and no definition reads it. -/
  fClk : Nat
  /-- `PD_GETTER_WAKES`: whether GET_PD auto-wakes (90_conflicts.md C3). -/
  pdGetterWakes : Bool
  deriving DecidableEq, Repr

/-- The constraints 00_scope.md R6 puts on the times. -/
def Params.ok (c : Params) : Bool :=
  decide (0 < c.perMicrosecond) && decide (0 < c.tSckHigh) && decide (c.tSckHigh < 60 * c.perMicrosecond) &&
    decide (0 < c.tSckLow) && decide (0 < c.tPoll) && decide (60 * c.perMicrosecond ≤ c.tPdHold)

/-- Free: a microsecond of the machine right after reset has this plus 1 units of time (log 7). -/
opaque Config.perMicrosecondLess1 : Nat

/-- Free: `T_SCK_HIGH` of the machine right after reset, brought into its range by `Config.params` (log 7). -/
opaque Config.sckHigh : Nat

/-- Free: `T_SCK_LOW` of the machine right after reset is this plus 1 (log 7). -/
opaque Config.sckLowLess1 : Nat

/-- Free: `T_POLL` of the machine right after reset is this plus 1 (log 7). -/
opaque Config.pollLess1 : Nat

/-- Free: `T_PD_HOLD` of the machine right after reset is this plus 60 µs (log 7). -/
opaque Config.pdHoldBeyond60 : Nat

/-- Free: `F_CLK` of the machine right after reset (log 7). -/
opaque Config.fClk : Nat

/-- Free: the level the chip puts on DOUT at the draw of this number (00_scope.md R12, log 2). -/
opaque Config.doutDraw : Nat → Level

/-- Free: the arbiter's choice at the draw of this number (20_memory.md R56, log 3). -/
opaque Config.grantDraw : Nat → Nat

/-- Free: `PULSES` of a value that `GAIN` never holds: "undefined for any other value"
(40_bit_engine.md R105, log 9). -/
opaque Config.pulsesElse : BitVec 8 → Nat

/-- The parameters of the machine right after reset: free times within R6's bounds, and the reference value
`false` of `PD_GETTER_WAKES` (log 6, log 7). -/
def Config.params : Params where
  perMicrosecond := Config.perMicrosecondLess1 + 1
  tSckHigh := Config.sckHigh % (60 * (Config.perMicrosecondLess1 + 1) - 1) + 1
  tSckLow := Config.sckLowLess1 + 1
  tPoll := Config.pollLess1 + 1
  tPdHold := Config.pdHoldBeyond60 + 60 * (Config.perMicrosecondLess1 + 1)
  fClk := Config.fClk
  pdGetterWakes := false

end Sys2Proof
end

