-- ==== Sys2Proof/Machine/Arith.lean ====
section
/-! DEFINITION. The integer arithmetic of the bit engine and of the calibration pipeline: the two's-complement decode
(40_bit_engine.md R106), the bit accumulation (R104), the trailing-pulse table (R105), the median (42_calibration.md R170). -/

namespace Sys2Proof.Machine

/-- R106: `s24(p) = p − 0x1000000 if p[23] = 1, else p`. -/
def s24 (p : FramePattern) : Int := if p.getLsbD 23 then (p.toNat : Int) - 0x1000000 else p.toNat

/-- R104: `((acc << 1) OR b)[23:0]`. -/
def accumulate (acc : FramePattern) (b : Level) : FramePattern := (acc <<< 1) ||| (BitVec.ofBool b).zeroExtend 24

/-- R105: `PULSES(g)`; undefined, so a free value, for a value that `GAIN` never holds (log 9). -/
def pulses (g : BitVec 8) : Nat :=
  if g = 128 then 1 else if g = 64 then 3 else if g = 32 then 2 else Config.pulsesElse g

/-- `x` put in its place in an ascending list. -/
def insertAscending (x : Int) : List Int → List Int
  | [] => [x]
  | y :: ys => if x ≤ y then x :: y :: ys else y :: insertAscending x ys

/-- The list sorted ascending. -/
def sortAscending : List Int → List Int
  | [] => []
  | x :: xs => insertAscending x (sortAscending xs)

/-- R170: "sort the list ascending into t; the median is `t[floor(n/2)]` (0-based)", for n ≥ 1. A command never
takes the median of no samples (R74); the function answers 0 there (log 20). -/
def median (s : List Int) : Int := (sortAscending s).getD (s.length / 2) 0

end Sys2Proof.Machine
end

