-- ==== Sys2Proof/Machine/State.lean ====
section
/-! DEFINITION. The engine's state (10_state.md), plain data: the host-visible registers, the line state, the
sequencer, the ports and the delay timer; the OPEN parameters; and what the environment has laid out (chip samples,
arbitration choices, host pins). -/

namespace Sys2Proof.Machine

/-- The response status codes that are produced (60_exceptions.md R232); their numbers are `Status.code`. -/
inductive Status where
  | ok
  | invalidArgument
  | divisionByZero
  | illegalCommand
  | notInitialized
  | overflow
  deriving DecidableEq, Repr

/-- Per-port state (R32). -/
inductive Port where
  /-- No command: the port accepts one. -/
  | empty
  /-- A command accepted, whose next segment to run (or whose running segment) is `k`. -/
  | pending (cmd : CmdWord) (arg : ArgWord) (k : Nat)
  /-- A response waiting for the host. -/
  | done (status : Status) (result : ResultWord)
  deriving DecidableEq, Repr

/-- The micro-step of a segment: what the sequencer does next (R31), with the bit counter or the
trailing-pulse counter where it has one (log 12 says which register work stands with which micro-step). -/
inductive Pos where
  /-- The segment's first micro-step: its checks, and its work up to the first line primitive. -/
  | start
  /-- INIT: the clock level is set; next, the output enable and the registers (43_lifecycle.md R210). -/
  | initDrive
  /-- `WaitReady`: the next primitive is its `DoutRead` (40_bit_engine.md R101). -/
  | wait
  /-- `DataBit` of bit `i`: the next primitive is `SckWrite(1)` (R103). -/
  | bitHigh (i : Fin 24)
  /-- `DataBit` of bit `i`: the next primitive is `SckWrite(0)`. -/
  | bitLow (i : Fin 24)
  /-- `DataBit` of bit `i`: the next primitive is `DoutRead`. -/
  | bitSample (i : Fin 24)
  /-- `TrailingPulses` with `left` pulses to go: the next primitive is `SckWrite(1)` (R107). -/
  | pulseHigh (left : Nat)
  /-- `TrailingPulses` with `left` pulses to go, this one among them: the next primitive is `SckWrite(0)`. -/
  | pulseLow (left : Nat)
  /-- The frame is read (R108): what the segment does with it comes next. -/
  | frameEnd
  /-- `PowerDownSeq`: the next primitive is `SckWrite(1)` (R110). -/
  | holdHigh
  /-- `PowerDownSeq` has been held: `PD <- 1` comes next (R112). -/
  | holdEnd
  deriving DecidableEq, Repr

/-- `BUSY(p, k, m)` (R31), with the transient state of the segment in progress (R33). -/
structure Busy where
  /-- p: the port whose command runs. -/
  port : Nat
  /-- k: the index of the current segment. -/
  seg : Nat
  /-- m: the micro-step. -/
  pos : Pos
  /-- m: the `Delay` after the last line primitive is still running. -/
  delaying : Bool
  /-- `acc`: the frame accumulator (40_bit_engine.md R104). -/
  acc : FramePattern
  /-- `s[0 .. ]`: the samples so far, oldest first; their number is the sample index. -/
  samples : List Int
  deriving DecidableEq, Repr

/-- Sequencer state (R31). The access lock is held exactly while it is `busy` (R35). -/
inductive Seq where
  | idle
  | busy (b : Busy)
  deriving DecidableEq, Repr

/-- The host's input signals of one port at a `clk` edge (20_memory.md R52). -/
structure PortPins where
  cmdValid : Bool
  cmdWord : CmdWord
  cmdArg : ArgWord
  rspReady : Bool
  deriving DecidableEq, Repr

/-- The inputs of one `clk` edge (R52). `stall`: the engine makes no micro-step at this edge, since cycle
counts are the implementation's (70_reset_and_hazards.md R272, log 1). -/
structure Edge where
  rst : Bool
  stall : Bool
  /-- The pins of port 0, 1, ...; a port beyond the list has idle pins. -/
  pins : List PortPins
  deriving DecidableEq, Repr

/-- The machine. The first eleven fields are the spec's; the rest are the model's own (INVENTORY.md, State). -/
structure State where
  /-- `INITD` (R26). -/
  initd : Bool
  /-- `GAIN` (R22). -/
  gain : BitVec 8
  /-- `PD` (R23): 1 is `PoweredDown`. -/
  pd : Bool
  /-- `OFFSET` (R24): two's complement. -/
  offset : BitVec 24
  /-- `SCALE` (R25): a binary64 pattern. -/
  scale : F64
  /-- `SCK` (R28): the level driven on the clock line. -/
  sck : Level
  /-- `SCK_OE` (R28): 1 driven, 0 released. -/
  sckOe : Bool
  /-- The sequencer (R31, R33). -/
  seq : Seq
  /-- The ports (R32); `P_PORTS` is their number (log 5). -/
  ports : List Port
  /-- The delay timer (R34): the units of time (log 7) the running `Delay` has left; read while `delaying` only. -/
  timer : Nat
  /-- The OPEN parameters (00_scope.md R6): no step writes them (log 6, log 7). -/
  params : Params
  /-- The samples the chip shows next, laid out by the environment; then come free draws (log 2). -/
  dout : List Level
  /-- The arbiter's next choices, laid out by the environment; then come free draws (log 3). -/
  grants : List Nat
  /-- The number of free draws taken (log 2, log 3). -/
  draws : Nat
  /-- The host's pins at the coming edges; then they are idle (log 4). -/
  inputs : List Edge
  deriving DecidableEq, Repr

/-- Reset values of 10_state.md R39, one port (the reference value), the parameters of Config; nothing laid out
by the environment. The timer's 0 is log 8's. -/
def State.reset : State where
  initd := false
  gain := 128
  pd := false
  offset := 0
  scale := 0x3FF0000000000000
  sck := false
  sckOe := false
  seq := .idle
  ports := [.empty]
  timer := 0
  params := Config.params
  dout := []
  grants := []
  draws := 0
  inputs := []

/-- Why a step stops. The spec gives the engine no trap and no stop (60_exceptions.md R230, R237): each of these is
for states that no run reaches (log 16), so each is safe. -/
inductive Fault where
  /-- Raised by every meaning when the sequencer is idle: no segment is in progress, so there is no micro-step of
  it. Safe: `step` runs a meaning with the sequencer busy only. -/
  | noSegment
  /-- Raised by a meaning at a micro-step that its segment does not have. Safe: no segment gets there. -/
  | strayPosition
  /-- Raised by the fetch when the sequencer is busy with a port that holds no command. Safe: a grant is given to a
  pending port, and only its own segment ends its command. -/
  | noCommand
  deriving DecidableEq, Repr

/-- Why there is no meaning. -/
inductive Refusal where
  /-- Raised by an arm of `exec` for an instruction without a meaning; no arm does now. Safe: the machine stops. -/
  | notModelled (mnemonic : String)
  deriving DecidableEq, Repr

end Sys2Proof.Machine
end

