-- ==== Sys2Proof/Machine/Flags.lean ====
section
/-! DEFINITION. The engine has no flags (10_state.md R36): "The only status is the 4-bit code in each command's
response". This file gives the codes (60_exceptions.md R232). -/

namespace Sys2Proof.Machine

/-- R232: the number `rsp_status` carries for a status. -/
def Status.code : Status → BitVec 4
  | .ok => 0
  | .invalidArgument => 1
  | .divisionByZero => 2
  | .illegalCommand => 3
  | .notInitialized => 4
  | .overflow => 5

end Sys2Proof.Machine
end

