-- ==== Sys2Proof/Machine/Operands.lean ====
section
/-! DEFINITION. Operand assembly (30_encoding.md R74 to R77) and the result encodings (R81). -/

namespace Sys2Proof.Machine

/-- R74: `n = (cmd[15:8] = 0) ? 10 : cmd[15:8]`. -/
def sampleCount (n : Nat) : Nat := if n = 0 then 10 else n

/-- R75: INIT's gain, `g = (graw = 0) ? 128 : graw`. -/
def initGain (graw : Nat) : Nat := if graw = 0 then 128 else graw

/-- R75: "The engine accepts g only if g ∈ {128, 64, 32}". -/
def gainAccepted (g : Nat) : Bool := g == 128 || g == 64 || g == 32

/-- The pattern of an accepted gain in the 8-bit register `GAIN` (10_state.md R22). -/
def gainPattern (g : Nat) : BitVec 8 := BitVec.ofNat 8 g

/-- R76: `v = cmd[24]`; 1 asks for `PoweredDown`, 0 for `Active`. -/
def powerDownAsked (v : Nat) : Bool := v == 1

/-- `zext_64` of a register of 8 bits (00_scope.md R9). -/
def zext64OfGain (g : BitVec 8) : ResultWord := g.zeroExtend 64

/-- `zext_64` of a 1-bit register (00_scope.md R9). -/
def zext64OfBit (b : Bool) : ResultWord := if b then 1 else 0

/-- `sext_64` of `OFFSET` (00_scope.md R9). -/
def sext64OfOffset (o : BitVec 24) : ResultWord := o.signExtend 64

end Sys2Proof.Machine
end

