-- ==== Sys2Proof/Machine/Ops.lean ====
section
/-! DEFINITION. The operations every meaning is written with: the line primitives and the delay timer (00_scope.md R12),
the end of a segment, and the end of a command by a response or an error (R13; 60_exceptions.md R230: an error is the
engine's only exception, and it ends one command). -/

namespace Sys2Proof.Machine

/-! ## Line primitives -/

/-- `SckWrite(b)`: "drives the clock line to level b ... and sets register `SCK <- b`". -/
def State.sckWrite (s : State) (b : Level) : State := { s with sck := b }

/-- `DoutRead()`: one sample of the data line, a free input: the next of the laid-out samples, or a free draw
(log 2). -/
def State.doutRead (s : State) : Level × State :=
  match s.dout with
  | b :: rest => (b, { s with dout := rest })
  | [] => (Config.doutDraw s.draws, { s with draws := s.draws + 1 })

/-! ## The sequencer inside a segment -/

/-- The segment in progress is now `b`. -/
def State.setBusy (s : State) (b : Busy) : State := { s with seq := .busy b }

/-- The next micro-step is the one at `p`, at once. -/
def State.goto (s : State) (b : Busy) (p : Pos) : State := s.setBusy { b with pos := p, delaying := false }

/-- `Delay(t)` starts (10_state.md R34): the micro-step at `p` comes once the timer has run out. -/
def State.delayThen (s : State) (b : Busy) (t : Nat) (p : Pos) : State :=
  { s with timer := t, seq := .busy { b with pos := p, delaying := true } }

/-- A unit of time or more of the running `Delay` passes, with no line change (log 8). -/
def State.tick (s : State) (b : Busy) : State :=
  { s with timer := s.timer - 1, seq := .busy { b with delaying := decide (1 < s.timer) } }

/-! ## The end of a segment and of a command -/

/-- The command's port takes this state and the sequencer is `IDLE`. -/
def State.release (s : State) (p : Nat) (port : Port) : State :=
  { s with ports := s.ports.set p port, seq := .idle }

/-- The end of a segment that is not the command's last: the port "stays `PENDING` with the next segment index, and
the sequencer returns to `IDLE`" (20_memory.md R56). -/
def State.endSegment (s : State) (b : Busy) : State :=
  match s.ports[b.port]? with
  | some (.pending cmd arg _) => s.release b.port (.pending cmd arg (b.seg + 1))
  | some .empty | some (.done _ _) | none => { s with seq := .idle }

/-- `respond(result)`: "ends the command with status OK and the 64-bit result" (00_scope.md R13). -/
def State.respond (s : State) (b : Busy) (result : ResultWord) : State := s.release b.port (.done .ok result)

/-- `raise STATUS(code)`: "ends the current command at once with response status `code` and result 0" (R13). -/
def State.raise (s : State) (b : Busy) (status : Status) : State := s.release b.port (.done status 0)

/-! ## What a meaning answers -/

/-- The outcome of a micro-step. -/
abbrev Result := Host.Outcome State Fault Refusal

/-- The micro-step of the segment in progress; there is none when the sequencer is idle. -/
def onSegment (s : State) (f : Busy → Result) : Result :=
  match s.seq with
  | .busy b => f b
  | .idle => .fault .noSegment

/-- The lifecycle test that begins a segment: `if INITD = 0 then raise STATUS(NOT_INITIALIZED)` (43_lifecycle.md R213,
R214). The illegal-word test of `Gate()` comes before it, in the fetch (Machine/Engine.lean). -/
def requireInitd (s : State) (b : Busy) (go : Result) : Result :=
  if s.initd then go else .next (s.raise b .notInitialized)

end Sys2Proof.Machine
end

