-- ==== Sys2Proof/Machine/BitEngine.lean ====
section
/-! DEFINITION. The bit-transfer engine and the power sequences (40_bit_engine.md), one line primitive a micro-step.
The commands' segments are written with them. -/

namespace Sys2Proof.Machine

/-- The trailing pulses begin with `left` of them to emit, or there is none left and the frame is read. -/
def pulsePos (left : Nat) : Pos := if left = 0 then .frameEnd else .pulseHigh left

/-- The position after the sample of data bit `i`: the next bit, or the trailing pulses of the current gain (R107:
`m <- PULSES(GAIN)`). -/
def afterBit (gain : BitVec 8) (i : Fin 24) : Pos :=
  if h : i.val + 1 < 24 then .bitHigh ⟨i.val + 1, h⟩ else pulsePos (pulses gain)

/-- The micro-step of `WaitReady` (R101): a sample that reads 0 ends the wait, and `acc <- 0`; one that reads 1
is followed by `Delay(T_POLL)` and another sample, for ever if need be (R102). -/
def waitReadyStep (s : State) (b : Busy) : State :=
  match s.doutRead with
  | (true, s') => s'.delayThen b s.params.tPoll .wait
  | (false, s') => s'.goto { b with acc := 0 } (.bitHigh 0)

/-- The micro-step that samples data bit `i` (R103, R104). -/
def bitSampleStep (s : State) (b : Busy) (i : Fin 24) : State :=
  match s.doutRead with
  | (v, s') => s'.goto { b with acc := accumulate b.acc v } (afterBit s.gain i)

/-- The micro-step at a position inside a line sequence: `ReadFrame` (R108) or `PowerDownSeq` (R110). The
other positions are the command's own. -/
def lineStep (s : State) (b : Busy) : Option State :=
  match b.pos with
  | .wait => some (waitReadyStep s b)
  | .bitHigh i => some ((s.sckWrite true).delayThen b s.params.tSckHigh (.bitLow i))
  | .bitLow i => some ((s.sckWrite false).delayThen b s.params.tSckLow (.bitSample i))
  | .bitSample i => some (bitSampleStep s b i)
  | .pulseHigh left => some ((s.sckWrite true).delayThen b s.params.tSckHigh (.pulseLow left))
  | .pulseLow left => some ((s.sckWrite false).delayThen b s.params.tSckLow (pulsePos (left - 1)))
  | .holdHigh => some ((s.sckWrite true).delayThen b s.params.tPdHold .holdEnd)
  | .start | .initDrive | .frameEnd | .holdEnd => none

/-- What a segment does at the positions that are its own. -/
structure SegmentSteps where
  start : Result
  initDrive : Result := .fault .strayPosition
  frameEnd : Result := .fault .strayPosition
  holdEnd : Result := .fault .strayPosition

/-- The micro-step of a segment: the command's at its own positions, the bit engine's at the others. -/
def segmentStep (s : State) (b : Busy) (own : SegmentSteps) : Result :=
  match lineStep s b with
  | some s' => .next s'
  | none =>
    match b.pos with
    | .start => own.start
    | .initDrive => own.initDrive
    | .frameEnd => own.frameEnd
    | .holdEnd => own.holdEnd
    | .wait | .bitHigh _ | .bitLow _ | .bitSample _ | .pulseHigh _ | .pulseLow _ | .holdHigh => .fault .strayPosition

/-- `ReadFrame()` or `DiscardRead()` begins (R108, R109): its first primitive is the `DoutRead` of `WaitReady`. -/
def State.beginFrame (s : State) (b : Busy) : State := s.goto b .wait

/-- `WakeSeq()` begins (R111): `SckWrite(0)`, no delay, then the discard-read. -/
def State.beginWake (s : State) (b : Busy) : State := (s.sckWrite false).beginFrame b

/-- `PowerDownSeq()` begins (R110): `SckWrite(0)`, `Delay(T_SCK_LOW)`, then `SckWrite(1)`. -/
def State.beginPowerDown (s : State) (b : Busy) : State :=
  (s.sckWrite false).delayThen b s.params.tSckLow .holdHigh

/-- `AutoWake` (R113): a segment of its own, run even when `PD = 0`, when it changes nothing. `check` is CALIBRATE's
test of its operand, which stands between the gate and the wake (42_calibration.md R173). DESIGN CHOICE (log 21): with
`PD` stale at 1 after the hazard of 70_reset_and_hazards.md R266 it wakes all the same, as R113 says, and so restores
agreement of `PD` with the line, where R266 names SET_PD 0 and INIT only. -/
def autoWake (s : State) (b : Busy) (check : Option Status) : Result :=
  segmentStep s b {
    start := requireInitd s b (
      match check with
      | some status => .next (s.raise b status)
      | none => if s.pd then .next (s.beginWake b) else .next (s.endSegment b))
    frameEnd := .next ({ s with pd := false }.endSegment b) }

end Sys2Proof.Machine
end

