-- ==== Sys2Proof/Machine/Float.lean ====
section
/-! DEFINITION. Binary64 arithmetic (00_scope.md R10, 42_calibration.md R177): `f64` of an integer, `fdiv`, and the
tests, exact over integers with one rounding, to nearest, ties to even. Subnormals are kept. -/

namespace Sys2Proof.Machine

/-- The sign bit (20_memory.md R67). -/
def f64Sign (x : F64) : Bool := x.getLsbD 63

/-- The exponent field, bits 62:52. -/
def f64Exponent (x : F64) : Nat := (x.extractLsb' 52 11).toNat

/-- The fraction field, bits 51:0. -/
def f64Fraction (x : F64) : Nat := (x.extractLsb' 0 52).toNat

/-- R10: "false for ±infinity and NaN". -/
def isFinite (x : F64) : Bool := f64Exponent x != 2047

/-- +infinity or −infinity. -/
def isInf (x : F64) : Bool := f64Exponent x == 2047 && f64Fraction x == 0

/-- Not a number. -/
def isNaN (x : F64) : Bool := f64Exponent x == 2047 && f64Fraction x != 0

/-- R10: "true for +0.0 and −0.0". -/
def isZero (x : F64) : Bool := f64Exponent x == 0 && f64Fraction x == 0

/-- The integer significand of a finite number: the fraction, with the leading 1 of a normal number. -/
def f64Significand (x : F64) : Nat :=
  if f64Exponent x = 0 then f64Fraction x else 2 ^ 52 + f64Fraction x

/-- How many units of 2^−1074 the last place of a finite number is, as a power of two. A finite number's magnitude
is `f64Significand x * 2 ^ f64Shift x` units of 2^−1074. -/
def f64Shift (x : F64) : Nat := f64Exponent x - 1

/-- A pattern with this sign and these low 63 bits. -/
def f64WithSign (sign : Bool) (magnitude : Nat) : F64 :=
  BitVec.ofNat 64 ((if sign then 2 ^ 63 else 0) + magnitude)

/-- The low 63 bits of an infinity. -/
def f64InfMagnitude : Nat := 0x7FF0000000000000

/-- The NaN an invalid operation gives. No rule reads its payload, and by R177 no operation of the engine gives a
NaN (log 10). -/
def f64NaN : F64 := 0x7FF8000000000000

/-- The quotient `num / den` rounded to an integer, to nearest, ties to even. -/
def roundQuotient (num den : Nat) : Nat :=
  let q := num / den
  let r := num % den
  if 2 * r < den then q
  else if den < 2 * r then q + 1
  else q + q % 2

/-- The last place of the binary64 result for the positive number `num / den`, counted in units of 2^−1074: 0 for
numbers below 2^53 units, else the place that leaves 53 bits. -/
def lastPlace (num den : Nat) : Nat := Nat.log2 (num / den) - 52

/-- The low 63 bits of the binary64 number nearest to `num / den` units of 2^−1074, ties to even; those of infinity
where it is too large. The exponent field and the fraction count up together, so a carry out of the fraction is the
next exponent. -/
def roundMagnitude (num den : Nat) : Nat :=
  let e := lastPlace num den
  min (e <<< 52 + roundQuotient num (den <<< e)) f64InfMagnitude

/-- `f64(i)`: the binary64 value of an integer; exact for |i| ≤ 2^53 (R10). -/
def f64OfInt (i : Int) : F64 :=
  f64WithSign (decide (i < 0)) (if i = 0 then 0 else roundMagnitude (i.natAbs <<< 1074) 1)

/-- The quotient of two finite numbers, the second not zero: the magnitude is
`(sa · 2^ea) / (sb · 2^eb)` with the significands and shifts of both, in units of 2^−1074. -/
def fdivFinite (a b : F64) : F64 :=
  let sign := f64Sign a != f64Sign b
  if isZero a then f64WithSign sign 0
  else f64WithSign sign (roundMagnitude
    ((f64Significand a <<< f64Shift a) <<< 1074) (f64Significand b <<< f64Shift b))

/-- `fdiv(a, b)`: IEEE 754 binary64 division, rounded to nearest, ties to even (R10). The engine divides finite
numbers by finite non-zero ones only (R177); the other rows are IEEE 754's. -/
def fdiv (a b : F64) : F64 :=
  let sign := f64Sign a != f64Sign b
  if isNaN a || isNaN b then f64NaN
  else if isInf a then (if isInf b then f64NaN else f64WithSign sign f64InfMagnitude)
  else if isInf b then f64WithSign sign 0
  else if isZero b then (if isZero a then f64NaN else f64WithSign sign f64InfMagnitude)
  else fdivFinite a b

end Sys2Proof.Machine
end

