-- ==== Sys2Proof/Machine/Calibration.lean ====
section
/-! DEFINITION. TARE, CALIBRATE, GET_WEIGHT (42_calibration.md). -/

namespace Sys2Proof.Machine

/-- The end of a frame of a command that takes `n` samples in one segment (R171): the sample is added, then comes the
next frame, or `finish` with all of them. -/
def collectSample (n : Nat) (x : Int) (s : State) (b : Busy) (finish : List Int → State) : State :=
  let samples := b.samples ++ [x]
  if samples.length < n then s.beginFrame { b with samples := samples } else finish samples

/-- The end of TARE's sampling segment (R172): `OFFSET <- Median(s)`, and the response is the new offset. -/
def finishTare (s : State) (b : Busy) (samples : List Int) : State :=
  let offset := BitVec.ofInt 24 (median samples)
  { s with offset := offset }.respond b (sext64OfOffset offset)

/-- TARE (R172). -/
def execTare (n : Nat) (s : State) : Result :=
  onSegment s fun b =>
    match b.seg with
    | 0 => autoWake s b none
    | _ => segmentStep s b {
        start := requireInitd s b (.next (s.beginFrame b))
        frameEnd := .next (collectSample (sampleCount n) (s24 b.acc) s b (finishTare s b)) }

/-- CALIBRATE's tests of its reference weight (R173). -/
def weightCheck (w : F64) : Option Status :=
  if isNaN w || isInf w then some .invalidArgument
  else if isZero w then some .divisionByZero
  else none

/-- The end of CALIBRATE's sampling segment (R173): `SCALE <- fdiv(f64(Median(a)), w)` unless it is not finite. -/
def finishCalibrate (w : F64) (s : State) (b : Busy) (samples : List Int) : State :=
  let sc := fdiv (f64OfInt (median samples)) w
  if isFinite sc then { s with scale := sc }.respond b sc else s.raise b .overflow

/-- CALIBRATE (R173): each frame is adjusted by `OFFSET` as it is read. -/
def execCalibrate (n : Nat) (w : F64) (s : State) : Result :=
  onSegment s fun b =>
    match b.seg with
    | 0 => autoWake s b (weightCheck w)
    | _ => segmentStep s b {
        start := requireInitd s b (.next (s.beginFrame b))
        frameEnd := .next
          (collectSample (sampleCount n) (s24 b.acc - s.offset.toInt) s b (finishCalibrate w s b)) }

/-- The end of GET_WEIGHT's sampling segment (R174), with the frame `raw`. -/
def finishWeight (raw : Int) (s : State) (b : Busy) : State :=
  let wt := fdiv (f64OfInt (raw - s.offset.toInt)) s.scale
  if isFinite wt then s.respond b wt else s.raise b .overflow

/-- GET_WEIGHT (R174): a zero `SCALE` is reported before the frame. -/
def execGetWeight (s : State) : Result :=
  onSegment s fun b =>
    match b.seg with
    | 0 => autoWake s b none
    | _ => segmentStep s b {
        start := requireInitd s b
          (.next (if isZero s.scale then s.raise b .divisionByZero else s.beginFrame b))
        frameEnd := .next (finishWeight (s24 b.acc) s b) }

end Sys2Proof.Machine
end

