-- ==== Sys2Proof/Machine/GainPower.lean ====
section
/-! DEFINITION. GET_GAIN, SET_GAIN, GET_PD, SET_PD (41_gain_power.md). -/

namespace Sys2Proof.Machine

/-- GET_GAIN (R140): auto-wake; then, in a second segment, the value of `GAIN`. -/
def execGetGain (s : State) : Result :=
  onSegment s fun b =>
    match b.seg with
    | 0 => autoWake s b none
    | _ => segmentStep s b { start := requireInitd s b (.next (s.respond b (zext64OfGain s.gain))) }

/-- The first segment of SET_GAIN (R141): the check before any write, the no-op, the store. -/
def storeGain (g : Nat) (s : State) (b : Busy) : State :=
  if !gainAccepted g then s.raise b .invalidArgument
  else if gainPattern g = s.gain then s.respond b 0
  else { s with gain := gainPattern g }.endSegment b

/-- SET_GAIN (R141): store, auto-wake, discard-read: three segments. -/
def execSetGain (g : Nat) (s : State) : Result :=
  onSegment s fun b =>
    match b.seg with
    | 0 => segmentStep s b { start := requireInitd s b (.next (storeGain g s b)) }
    | 1 => autoWake s b none
    | _ => segmentStep s b {
        start := requireInitd s b (.next (s.beginFrame b))
        frameEnd := .next (s.respond b 0) }

/-- The segment of GET_PD that answers (R142). -/
def answerPd (s : State) (b : Busy) : Result :=
  segmentStep s b { start := requireInitd s b (.next (s.respond b (zext64OfBit s.pd))) }

/-- GET_PD (R142): the auto-wake segment only when `PD_GETTER_WAKES`; then the value of `PD`. -/
def execGetPd (s : State) : Result :=
  onSegment s fun b =>
    match b.seg with
    | 0 => if s.params.pdGetterWakes then autoWake s b none else answerPd s b
    | _ => answerPd s b

/-- `PowerTransition(v)` at its start, in the one segment of SET_PD (40_bit_engine.md R112): no pulse when `v = PD`. -/
def beginPowerTransition (v : Bool) (s : State) (b : Busy) : State :=
  if v = s.pd then s.respond b 0
  else if v then s.beginPowerDown b
  else s.beginWake b

/-- SET_PD (R143): one segment; `PD <- 1` after the hold, `PD <- 0` after the wake's discard-read. -/
def execSetPd (v : Nat) (s : State) : Result :=
  onSegment s fun b =>
    segmentStep s b {
      start := requireInitd s b (.next (beginPowerTransition (powerDownAsked v) s b))
      frameEnd := .next ({ s with pd := false }.respond b 0)
      holdEnd := .next ({ s with pd := true }.respond b 0) }

end Sys2Proof.Machine
end

