-- ==== Sys2Proof/Machine/Lifecycle.lean ====
section
/-! DEFINITION. INIT, CLEANUP and illegal words (43_lifecycle.md). -/

namespace Sys2Proof.Machine

/-- The register part of INIT (R210), after the level of the clock line has been set to 0. -/
def initRegisters (g : Nat) (s : State) : State :=
  { s with
    sckOe := true
    gain := gainPattern g
    pd := false
    offset := 0
    scale := 0x3FF0000000000000
    initd := true }

/-- The first micro-step of INIT (R210): the check before any write, then `SckWrite(0)`. -/
def beginInit (g : Nat) (s : State) (b : Busy) : State :=
  if gainAccepted g then (s.sckWrite false).goto b .initDrive else s.raise b .invalidArgument

/-- INIT (R210): valid in every state; pins, registers, then the discard-read. -/
def execInit (g : Nat) (s : State) : Result :=
  onSegment s fun b =>
    segmentStep s b {
      start := .next (beginInit (initGain g) s b)
      initDrive := .next ((initRegisters (initGain g) s).beginFrame b)
      frameEnd := .next (s.respond b 0) }

/-- CLEANUP (R211): the clock line is released; `GAIN`, `PD`, `OFFSET`, `SCALE` keep their values. -/
def execCleanup (s : State) : Result :=
  onSegment s fun b =>
    segmentStep s b {
      start := requireInitd s b
        (.next ({ s with sckOe := false, sck := false, initd := false }.respond b 0)) }

/-- An illegal word (R212): one segment, `Gate()` alone, whatever `INITD` is. -/
def runIllegal (s : State) (b : Busy) : Result := .next (s.raise b .illegalCommand)

end Sys2Proof.Machine
end

