-- ==== Sys2Proof/Machine/Dispatch.lean ====
section
/-! DEFINITION. exec: the micro-step of a command's segment in progress, one arm for each command. -/

namespace Sys2Proof.Machine

def exec (i : Instr) (s : State) : Host.Outcome State Fault Refusal :=
  match i with
  | .init g => Sys2Proof.Machine.execInit g s
  | .tare n => Sys2Proof.Machine.execTare n s
  | .calibrate n w => Sys2Proof.Machine.execCalibrate n w s
  | .getWeight => Sys2Proof.Machine.execGetWeight s
  | .getGain => Sys2Proof.Machine.execGetGain s
  | .setGain g => Sys2Proof.Machine.execSetGain g s
  | .getPd => Sys2Proof.Machine.execGetPd s
  | .setPd v => Sys2Proof.Machine.execSetPd v s
  | .cleanup => Sys2Proof.Machine.execCleanup s

end Sys2Proof.Machine
end

