-- ==== Sys2Proof/Machine/Ports.lean ====
section
/-! DEFINITION. What the outside sees and does: the port and line signals (20_memory.md R51, R52), command acceptance and
response delivery at a `clk` edge (R53, R54), and reset (70_reset_and_hazards.md R260, R261). -/

namespace Sys2Proof.Machine

/-! ## Outputs -/

/-- `pd_sck_o`: "equal to register `SCK`" (R51). -/
def pdSckO (s : State) : Level := s.sck

/-- `pd_sck_oe`: "equal to register `SCK_OE`; 0 releases the line" (R51). What level a released line has is the
board's (70_reset_and_hazards.md R264, log 13). -/
def pdSckOe (s : State) : Bool := s.sckOe

/-- `cmd_ready[p]`: "1 exactly when port p is `EMPTY`" (R52). -/
def cmdReady (s : State) (p : Nat) : Bool := s.ports[p]? == some .empty

/-- `rsp_valid[p]`, `rsp_status[p]` and `rsp_result[p]` together (R52): the response while the port is `DONE`, none
when `rsp_valid` is 0 (log 18). -/
def response (s : State) (p : Nat) : Option (BitVec 4 × ResultWord) :=
  match s.ports[p]? with
  | some (.done status result) => some (status.code, result)
  | some .empty | some (.pending _ _ _) | none => none

/-- `rsp_valid[p]`: "1 exactly when port p is `DONE`" (R52). -/
def rspValid (s : State) (p : Nat) : Bool := (response s p).isSome

/-! ## Inputs -/

/-- One port at an edge: an `EMPTY` port takes an offered command whole (R53), a `DONE` port whose response is
taken becomes `EMPTY` (R54). -/
def clockPort (pins : PortPins) (port : Port) : Port :=
  match port with
  | .empty => if pins.cmdValid then .pending pins.cmdWord pins.cmdArg 0 else .empty
  | .pending cmd arg k => .pending cmd arg k
  | .done status result => if pins.rspReady then .empty else .done status result

/-- All ports at an edge; a port without pins in the list sees idle pins. -/
def clockPorts : List PortPins → List Port → List Port
  | pins :: rest, port :: ports => clockPort pins port :: clockPorts rest ports
  | [], ports => ports
  | _, [] => []

/-- An edge with `rst` 1: every piece of the engine's state takes its reset value (R260); every command is dropped,
in progress, pending or answered (R261). The number of ports, the parameters and what the environment has laid out
are no state of the engine and stay (log 15). -/
def State.resetEvent (s : State) : State :=
  { State.reset with
    ports := List.replicate s.ports.length .empty
    params := s.params
    dout := s.dout
    grants := s.grants
    draws := s.draws
    inputs := s.inputs }

/-- What an edge leaves the engine to do. -/
inductive Clocked where
  /-- The engine makes no micro-step at this edge. -/
  | held (s : State)
  /-- The engine may make a micro-step. -/
  | free (s : State)
  deriving DecidableEq, Repr

/-- The `clk` edge: `rst` is sampled first, then every port's pins (R52). With no edge laid out, `rst` is 0 and the
pins are idle. -/
def State.clock (s : State) : Clocked :=
  match s.inputs with
  | [] => .free s
  | e :: rest =>
    if e.rst then .held ({ s with inputs := rest }.resetEvent)
    else
      let s' := { s with inputs := rest, ports := clockPorts e.pins s.ports }
      if e.stall then .held s' else .free s'

/-! ## Arbitration -/

/-- The ports that are `PENDING`, in ascending order, counting from `p`. -/
def pendingFrom (p : Nat) : List Port → List Nat
  | [] => []
  | .pending _ _ _ :: ports => p :: pendingFrom (p + 1) ports
  | .empty :: ports => pendingFrom (p + 1) ports
  | .done _ _ :: ports => pendingFrom (p + 1) ports

/-- The ports that are `PENDING`, in ascending order. -/
def State.pendingPorts (s : State) : List Nat := pendingFrom 0 s.ports

/-- The arbiter's next choice: the next laid-out one, or a free draw (log 3). -/
def State.drawGrant (s : State) : Nat × State :=
  match s.grants with
  | c :: rest => (c, { s with grants := rest })
  | [] => (Config.grantDraw s.draws, { s with draws := s.draws + 1 })

/-- The pending port that the choice `c` names: with one pending port there is no choice. -/
def chosenPort (c : Nat) : List Nat → Option Nat
  | [] => none
  | [p] => some p
  | p :: q :: rest => (p :: q :: rest)[c % (rest.length + 2)]?

/-- The segment index a port holds. -/
def Port.nextSegment : Port → Nat
  | .pending _ _ k => k
  | .empty => 0
  | .done _ _ => 0

/-- `BUSY(p, k, m)` at the first micro-step of segment k of port p's command (R31). -/
def State.granted (s : State) (p : Nat) : Busy where
  port := p
  seg := ((s.ports[p]?).getD .empty).nextSegment
  pos := .start
  delaying := false
  acc := 0
  samples := []

/-- R56: "When the sequencer is `IDLE` and one or more ports are `PENDING`, it chooses any one of them and runs that
command's next segment". -/
def State.grant (s : State) : Option (State × Busy) :=
  match s.pendingPorts with
  | [] => none
  | ps =>
    match s.drawGrant with
    | (c, s') => (chosenPort c ps).map fun p => (s'.setBusy (s'.granted p), s'.granted p)

end Sys2Proof.Machine
end

