-- ==== Sys2Proof/Machine/Engine.lean ====
section
/-! DEFINITION. The sequencer: which command it runs, and its next micro-step. -/

namespace Sys2Proof.Machine

/-- The micro-step of the segment `b` in progress: the command is the one its port holds; an illegal word's segment
is `Gate()` alone (43_lifecycle.md R212, R213). -/
def runMicroStep (s : State) (b : Busy) : Result :=
  match s.ports[b.port]? with
  | some (.pending cmd arg _) =>
    match decode cmd arg with
    | .ok i => exec i s
    | .error _ => runIllegal s b
  | some .empty | some (.done _ _) | none => .fault .noCommand

/-- The engine's part of a step: a running `Delay` goes on; else the segment in progress makes its next micro-step;
else the arbiter grants a pending port and its segment makes its first; else the engine waits for commands. -/
def engineStep (s : State) : Result :=
  match s.seq with
  | .busy b => if b.delaying then .next (s.tick b) else runMicroStep s b
  | .idle =>
    match s.grant with
    | some (s', b) => runMicroStep s' b
    | none => .next s

/-- One `clk` edge at which the host's pins are sampled, then at most one micro-step of the engine (log 1). -/
def clockedStep (s : State) : Result :=
  match s.clock with
  | .held s' => .next s'
  | .free s' => engineStep s'

/-- Pins of an edge at which the host does nothing. -/
def idleEdge : Edge := ⟨false, false, []⟩

/-- The command `cmd`, `arg` stands accepted on port 0, and the very next step grants that port: the sequencer is
idle, the next edge is idle, the arbiter's next choice is the first pending port (log 11). -/
def State.placeCommand (s : State) (cmd : CmdWord) (arg : ArgWord) : State :=
  { s with
    seq := .idle
    ports := .pending cmd arg 0 :: s.ports.tail
    grants := 0 :: s.grants
    inputs := idleEdge :: s.inputs }

end Sys2Proof.Machine
end

