-- ==== Sys2Proof/Machine/Step.lean ====
section
/-! DEFINITION. The step of the machine, and where it finds a command. -/

namespace Sys2Proof.Machine

/-- One step: a `clk` edge and at most one micro-step of the engine (Machine/Engine.lean). -/
def step (s : State) : Host.Outcome State Fault Refusal := clockedStep s

/-- The state `s` with a table row's word as the command that the next step runs. -/
def State.withFetchWord (s : State) (nbits w : Nat) : State := s.placeCommand (tableCmd nbits w) (tableArg nbits w)

end Sys2Proof.Machine
end

