-- ==== Sys2Proof/Safety.lean ====
section
/-! DEFINITION. The terms claims are stated in: runs, the invariant of the machine, the invariant of the clock line with
one port, the chip's samples of a frame, the value of a binary64 pattern. -/

namespace Sys2Proof.Machine

/-! ## Runs -/

/-- `k` steps, stopping at the first fault or refusal. -/
def steps : Nat → State → Result
  | 0, s => .next s
  | k + 1, s =>
    match step s with
    | .next t => steps k t
    | .fault r => .fault r
    | .refused r => .refused r

/-- Some number of steps leads from `s` to `t`. -/
def Reaches (s t : State) : Prop := ∃ k, steps k s = .next t

/-- The number of rising edges of PD_SCK in `k` steps: what the spec counts as pulses (40_bit_engine.md R114). -/
def risingEdges : Nat → State → Nat
  | 0, _ => 0
  | k + 1, s =>
    match step s with
    | .next t => (if !s.sck && t.sck then 1 else 0) + risingEdges k t
    | .fault _ => 0
    | .refused _ => 0

/-- The machine goes on: a step is neither a fault nor a refusal. -/
def Goes (s : State) : Prop := ∃ t, step s = .next t

/-! ## The registers as one record, for frames -/

/-- The seven registers of 10_state.md sections 2 and 3. -/
structure Registers where
  initd : Bool
  gain : BitVec 8
  pd : Bool
  offset : BitVec 24
  scale : F64
  sck : Level
  sckOe : Bool
  deriving DecidableEq, Repr

/-- The registers of a state. -/
def State.registers (s : State) : Registers := ⟨s.initd, s.gain, s.pd, s.offset, s.scale, s.sck, s.sckOe⟩

/-! ## What the chip shows -/

/-- The 24 samples of a frame pattern, bit 23 first (20_memory.md R66). -/
def frameBits (p : FramePattern) : List Level := (List.range 24).map p.getMsbD

/-- What DOUT shows for one frame: `polls` samples that are not ready, a ready sample, the data bits
(40_bit_engine.md R101, R104). -/
def frameSamples (polls : Nat) (p : FramePattern) : List Level :=
  List.replicate polls true ++ false :: frameBits p

/-- What DOUT shows for frames one after another. -/
def framesSamples (frames : List (Nat × FramePattern)) : List Level :=
  frames.flatMap fun f => frameSamples f.1 f.2

/-! ## The invariant -/

/-- What a segment is (20_memory.md R55: "Every command is a fixed list of segments"). -/
inductive SegmentKind where
  /-- `AutoWake` (40_bit_engine.md R113). -/
  | wake
  /-- The check and store of SET_GAIN (41_gain_power.md R141). -/
  | store
  /-- The answer of a getter (R140, R142). -/
  | answer
  /-- The discard-read of SET_GAIN (R141). -/
  | discard
  /-- The sampling segment of `n` frames (42_calibration.md R171). -/
  | sample (n : Nat)
  /-- INIT (43_lifecycle.md R210). -/
  | construct
  /-- SET_PD (41_gain_power.md R143). -/
  | power
  /-- CLEANUP (43_lifecycle.md R211). -/
  | teardown
  deriving DecidableEq, Repr

/-- The list of segments of each command; GET_PD's depends on `PD_GETTER_WAKES`. -/
def segmentKinds (pdGetterWakes : Bool) : Instr → List SegmentKind
  | .init _ => [.construct]
  | .tare n => [.wake, .sample (sampleCount n)]
  | .calibrate n _ => [.wake, .sample (sampleCount n)]
  | .getWeight => [.wake, .sample 1]
  | .getGain => [.wake, .answer]
  | .setGain _ => [.store, .wake, .discard]
  | .getPd => if pdGetterWakes then [.wake, .answer] else [.answer]
  | .setPd _ => [.power]
  | .cleanup => [.teardown]

/-- A position inside `ReadFrame`. -/
def Pos.inFrame : Pos → Bool
  | .wait | .bitHigh _ | .bitLow _ | .bitSample _ | .pulseHigh _ | .pulseLow _ | .frameEnd => true
  | .start | .initDrive | .holdHigh | .holdEnd => false

/-- The segments that read a frame whose value is dropped. -/
def SegmentKind.discards : SegmentKind → Bool
  | .wake | .discard | .construct | .power => true
  | .store | .answer | .teardown | .sample _ => false

/-- A segment of this kind can stand at this micro-step with this many samples collected. -/
def SegmentKind.fits (kind : SegmentKind) (b : Busy) : Bool :=
  match b.pos with
  | .start => b.samples.length == 0
  | .initDrive => kind == .construct && b.samples.length == 0
  | .holdHigh => kind == .power && b.samples.length == 0
  | .holdEnd => kind == .power && b.samples.length == 0
  | .wait | .bitHigh _ | .bitLow _ | .bitSample _ | .pulseHigh _ | .pulseLow _ | .frameEnd =>
    match kind with
    | .sample n => decide (b.samples.length < n)
    | .wake | .discard | .construct | .power => b.samples.length == 0
    | .store | .answer | .teardown => false

/-- The range of a sample of a command (42_calibration.md R176): a decoded frame for TARE, an adjusted one for
CALIBRATE. -/
def sampleInRange : Instr → Int → Prop
  | .tare _, x => -8388608 ≤ x ∧ x ≤ 8388607
  | .init _, x | .calibrate _ _, x | .getWeight, x | .getGain, x | .setGain _, x | .getPd, x | .setPd _, x
  | .cleanup, x => -16777215 ≤ x ∧ x ≤ 16777215

/-- What the registers are at each micro-step: after the first one `INITD` is 1, `SCK` is what the sequence left, the accumulator holds as
many bits as were read (40_bit_engine.md R104: "No bit is lost"), and no more pulses are to go than `PULSES(GAIN)`. -/
def LineFits (s : State) (b : Busy) : Prop :=
  match b.pos with
  | .start => True
  | .initDrive => s.sck = false
  | .wait => s.initd = true
  | .bitHigh i => s.initd = true ∧ b.acc.toNat < 2 ^ i.val ∧ (i.val ≠ 0 → s.sck = false)
  | .bitLow i => s.initd = true ∧ b.acc.toNat < 2 ^ i.val ∧ s.sck = true
  | .bitSample i => s.initd = true ∧ b.acc.toNat < 2 ^ i.val ∧ s.sck = false
  | .pulseHigh left => s.initd = true ∧ 1 ≤ left ∧ left ≤ pulses s.gain ∧ s.sck = false
  | .pulseLow left => s.initd = true ∧ 1 ≤ left ∧ left ≤ pulses s.gain ∧ s.sck = true
  | .frameEnd => s.initd = true ∧ s.sck = false
  | .holdHigh => s.initd = true ∧ s.sck = false
  | .holdEnd => s.initd = true ∧ s.sck = true

/-- A port's state is one a run can have: an error carries result 0 (30_encoding.md R80), and the next segment of a
command is one it has. -/
def PortFits (pdGetterWakes : Bool) : Port → Prop
  | .empty => True
  | .done status result => status = .ok ∨ result = 0
  | .pending cmd arg k =>
    match decode cmd arg with
    | .ok i => k < (segmentKinds pdGetterWakes i).length
    | .error _ => k = 0

/-- The segment in progress is one of the command its port holds, at a micro-step it has; an illegal word has its
first micro-step only (43_lifecycle.md R212), and INIT gets to its register writes with an accepted gain only (R210). -/
def BusyFits (s : State) (b : Busy) : Prop :=
  ∃ cmd arg, s.ports[b.port]? = some (.pending cmd arg b.seg) ∧ LineFits s b ∧
    match decode cmd arg with
    | .error _ => b.pos = .start
    | .ok i =>
      (∃ kind, (segmentKinds s.params.pdGetterWakes i)[b.seg]? = some kind ∧ kind.fits b = true) ∧
      (∀ x ∈ b.samples, sampleInRange i x) ∧
      ∀ g, i = .init g → b.pos = .initDrive → gainAccepted (initGain g) = true

/-- The invariant of the machine. -/
structure EngineInv (s : State) : Prop where
  /-- `P_PORTS ≥ 1` (00_scope.md R6). -/
  somePort : s.ports ≠ []
  /-- The times are within R6's constraints. -/
  params : s.params.ok = true
  /-- `GAIN` "holds exactly one of 128, 64, 32" (10_state.md R22). -/
  gain : s.gain = 128 ∨ s.gain = 64 ∨ s.gain = 32
  /-- "`SCALE` is always finite and never NaN" (10_state.md R25). -/
  scale : isFinite s.scale = true
  /-- The clock line is driven exactly while the engine is initialised (43_lifecycle.md R210, R211). -/
  driven : s.sckOe = s.initd
  ports : ∀ port ∈ s.ports, PortFits s.params.pdGetterWakes port
  busy : ∀ b, s.seq = .busy b → BusyFits s b

/-! ## The clock line with one port -/

/-- The segments that leave the chip awake while they run: they begin with `PD = 0` where no other port can set it. -/
def SegmentKind.awake : SegmentKind → Bool
  | .discard | .sample _ => true
  | .wake | .store | .answer | .construct | .power | .teardown => false

/-- The segments whose frame is a wake: `PD` is 1 until the frame has been read (40_bit_engine.md R112). -/
def SegmentKind.wakes : SegmentKind → Bool
  | .wake | .power => true
  | .discard | .sample _ | .store | .answer | .construct | .teardown => false

/-- The line and `PD` inside a segment of this kind, when no other port's segment came before it. -/
def LineMatches (s : State) (kind : SegmentKind) (b : Busy) : Prop :=
  match b.pos with
  | .start => s.initd = true → kind.awake = true → s.pd = false
  | .initDrive => True
  | .wait => s.sck = false ∧ s.pd = kind.wakes
  | .bitHigh _ | .bitLow _ | .bitSample _ | .pulseHigh _ | .pulseLow _ | .frameEnd => s.pd = kind.wakes
  | .holdHigh | .holdEnd => s.pd = false

/-- 10_state.md R28's invariant, for one port, where the hazard of 70_reset_and_hazards.md R266 cannot arise: between segments `SCK = PD`
when `INITD = 1`. -/
structure OnePortLine (s : State) : Prop where
  onePort : s.ports.length = 1
  /-- Between segments, and before a segment's first micro-step, `SCK = PD`. -/
  between : (s.seq = .idle ∨ ∃ b, s.seq = .busy b ∧ b.pos = .start) → s.initd = true → s.sck = s.pd
  /-- A command whose next segment needs the chip awake finds it awake. -/
  next : ∀ cmd arg k i kind, s.seq = .idle → s.ports[0]? = some (.pending cmd arg k) → decode cmd arg = .ok i →
    (segmentKinds s.params.pdGetterWakes i)[k]? = some kind → kind.awake = true → s.initd = true → s.pd = false
  inside : ∀ b cmd arg i kind, s.seq = .busy b → s.ports[b.port]? = some (.pending cmd arg b.seg) →
    decode cmd arg = .ok i → (segmentKinds s.params.pdGetterWakes i)[b.seg]? = some kind → LineMatches s kind b

/-! ## A command that runs alone -/

/-- Port `p` holds the command `i`, not begun; no other port is pending, no segment is in progress, and the host
does nothing while the command runs. -/
structure Alone (s : State) (p : Nat) (i : Instr) : Prop where
  idle : s.seq = .idle
  quiet : s.inputs = []
  only : s.pendingPorts = [p]
  holds : ∃ cmd arg, s.ports[p]? = some (.pending cmd arg 0) ∧ decode cmd arg = .ok i

/-- From `s`, the command on port `p` runs to its response: the registers are `r` at the end, PD_SCK has risen `edges` times, the
chip's samples `rest` are left, the port is `DONE` with the response, every other port is as it was, and the sequencer is idle. -/
def Completes (s : State) (p : Nat) (r : Registers) (rest : List Level) (edges : Nat) (status : Status)
    (result : ResultWord) : Prop :=
  ∃ k t, steps k s = .next t ∧ risingEdges k s = edges ∧ t.registers = r ∧ t.dout = rest ∧
    t.ports = s.ports.set p (.done status result) ∧ t.seq = .idle ∧ t.params = s.params

/-! ## Arbitration -/

/-- The step from `s` grants port `p`: the sequencer is idle after the edge, and the arbiter chooses `p`. -/
def Grants (s : State) (p : Nat) : Prop :=
  ∃ s1 s2 b, s.clock = .free s1 ∧ s1.seq = .idle ∧ s1.grant = some (s2, b) ∧ b.port = p

/-- Choices recur from step `n` on: after every later step the arbiter grants some port again. -/
def ChoicesRecur (run : Nat → State) (n : Nat) : Prop := ∀ m, n ≤ m → ∃ m' q, m ≤ m' ∧ Grants (run m') q

/-- Weak fairness (20_memory.md R56) of an infinite run: "a port that stays `PENDING` is chosen eventually", where the
arbiter goes on choosing. A run that hangs in a segment, where the sequencer is never idle again (R58), makes no more
choices and is fair. The choice is free in this model (log 3); a claim that needs fairness takes this as a hypothesis. -/
def WeaklyFair (run : Nat → State) : Prop :=
  ∀ p n, (∀ m, n ≤ m → p ∈ (run m).pendingPorts) → ChoicesRecur run n → ∃ m, n ≤ m ∧ Grants (run m) p

/-! ## The value of a binary64 pattern -/

/-- The magnitude of a finite pattern, in units of 2^−1074 (00_scope.md R10, 20_memory.md R67). -/
def f64Units (x : F64) : Nat := f64Significand x * 2 ^ f64Shift x

/-- The number a finite pattern stands for. -/
def f64Value (x : F64) : ℚ := (if f64Sign x then -1 else 1) * ((f64Units x : ℚ) / 2 ^ 1074)

end Sys2Proof.Machine
end

