-- ==== Sys2Proof/Certificates/Slice0/Obligations.lean ====
section
/-! DEFINITION. The statements for the provers. -/

open Sys2Proof Sys2Proof.Machine

/-! ## Encoding (30_encoding.md) -/

/-- Encoding and decoding lose no operand bit: every well-formed command, with every operand value its field
admits, is read back from its two words. -/
def Obligations.DecodeOfEncodeIsTheCommand : Prop :=
  ∀ i : Instr, i.wellFormed = true → decode (encodeWord i) (encodeArg i) = .ok i

/-- Where the decoder reads a command, the command is well-formed, its word is the word read, and CALIBRATE's reference
weight is the operand word. -/
def Obligations.EncodeOfDecodeIsTheWord : Prop :=
  ∀ (cmd : CmdWord) (arg : ArgWord) (i : Instr), decode cmd arg = .ok i →
    i.wellFormed = true ∧ encodeWord i = cmd ∧ ∀ n w, i = .calibrate n w → w = arg

/-- R82 with the table of R73: a word is read as the command of a row exactly when `(cmd & mask) = match`, it is illegal exactly
when no row accepts it, and no word is accepted by two rows. -/
def Obligations.DecodeIsTotalAndUnambiguous : Prop :=
  ∀ (cmd : CmdWord) (arg : ArgWord),
    (∀ r ∈ opcodeRows, cmd &&& r.mask = r.pattern ↔ ∃ i, decode cmd arg = .ok i ∧ rowOf i = r) ∧
    ((∃ e, decode cmd arg = .error e) ↔ ∀ r ∈ opcodeRows, cmd &&& r.mask ≠ r.pattern) ∧
    (∀ r ∈ opcodeRows, ∀ r' ∈ opcodeRows, cmd &&& r.mask = r.pattern → cmd &&& r'.mask = r'.pattern → r = r')

/-- R79, the words: illegal is `OP` 0x0 or 0xA to 0xF, or a 1 outside the fields the opcode uses. -/
def Obligations.IllegalWordsAreThese : Prop :=
  ∀ (cmd : CmdWord) (arg : ArgWord),
    (∃ e, decode cmd arg = .error e) ↔
      fieldOp cmd = 0 ∨ 0xA ≤ (fieldOp cmd).toNat ∨ cmd &&& ~~~ usedBits (fieldOp cmd) ≠ 0

/-- R78: a command other than CALIBRATE is the same command with any operand word. -/
def Obligations.OperandWordIsIgnored : Prop :=
  ∀ (cmd : CmdWord) (arg arg' : ArgWord), fieldOp cmd ≠ 0x3 → decode cmd arg = decode cmd arg'

/-- R74 to R76 over every field value: the sample count is 1 to 255, with 0 and 10 the same command; INIT accepts
0x80, 0x40, 0x20 and 0x00 (128), SET_GAIN only the first three; `V` = 1 asks for power-down. -/
def Obligations.OperandFormsMeanTheirValues : Prop :=
  (∀ n, n ≤ 255 → 1 ≤ sampleCount n ∧ sampleCount n ≤ 255 ∧ (n ≠ 0 → sampleCount n = n)) ∧
  sampleCount 0 = 10 ∧ sampleCount 10 = sampleCount 0 ∧
  (∀ g, g ≤ 255 → (gainAccepted (initGain g) = true ↔ g = 0x80 ∨ g = 0x40 ∨ g = 0x20 ∨ g = 0x00)) ∧
  (∀ g, g ≤ 255 → (gainAccepted g = true ↔ g = 0x80 ∨ g = 0x40 ∨ g = 0x20)) ∧
  initGain 0 = 128 ∧ powerDownAsked 1 = true ∧ powerDownAsked 0 = false

/-- A few words of each family, written out bit by bit from the patterns of R73, decode to what they stand for. -/
def Obligations.WrittenOutWordsDecode : Prop :=
  decode 0b00000000_01000000_00000000_0000_0001 0 = .ok (.init 64) ∧
  decode 0b00000000_00000000_00000101_0000_0010 0 = .ok (.tare 5) ∧
  decode 0b00000000_00000000_00000011_0000_0011 0x4059000000000000 = .ok (.calibrate 3 0x4059000000000000) ∧
  decode 0b00000000_00100000_00000000_0000_0110 0 = .ok (.setGain 32) ∧
  decode 0b00000001_00000000_00000000_0000_1000 0 = .ok (.setPd 1) ∧
  decode 0b00000000_00000000_00000000_0000_1001 0 = .ok .cleanup

/-! ## Arithmetic (40_bit_engine.md, 42_calibration.md) -/

/-- R106: the two forms of the decode, which agree, and are the two's-complement value; the range −8388608 .. 8388607; the corner
cases. -/
def Obligations.TwosComplementDecodeFormsAgree : Prop :=
  ∀ p : FramePattern,
    (s24 p = if p.getLsbD 23 then (p.toNat : Int) - 0x1000000 else (p.toNat : Int)) ∧
    (s24 p = if p.getLsbD 23 then ((p &&& 0x7FFFFF).toNat : Int) - 0x800000 else (p.toNat : Int)) ∧
    s24 p = p.toInt ∧ -8388608 ≤ s24 p ∧ s24 p ≤ 8388607 ∧
    s24 0x000000 = 0 ∧ s24 0x7FFFFF = 8388607 ∧ s24 0x800000 = -8388608 ∧ s24 0xFFFFFF = -1 ∧ s24 0x000001 = 1

/-- R104: after the 24 samples "`acc[23 − i]` is the bit sampled in iteration i", and no 1 is carried past bit 23: before sample i the
accumulator is below 2^i. -/
def Obligations.AccumulatorHoldsTheSamples : Prop :=
  ∀ bits : List Level,
    (bits.length ≤ 24 → (bits.foldl accumulate 0).toNat < 2 ^ bits.length) ∧
    (bits.length = 24 → ∀ i, i < 24 → (bits.foldl accumulate 0).getLsbD (23 - i) = bits.getD i false)

/-- R105: `PULSES` of the three gains, and so 25, 27 and 26 pulses a frame. -/
def Obligations.PulsesOfTheGains : Prop :=
  pulses 128 = 1 ∧ pulses 64 = 3 ∧ pulses 32 = 2 ∧ 24 + pulses 128 = 25 ∧ 24 + pulses 64 = 27 ∧ 24 + pulses 32 = 26

/-- R170: the median of n ≥ 1 integers is `t[floor(n/2)]` of the list sorted ascending, which is an ordering of the same
elements; so it is an element of the list. -/
def Obligations.MedianIsTheSortedMiddle : Prop :=
  ∀ s : List Int,
    (sortAscending s).Perm s ∧ (sortAscending s).Pairwise (· ≤ ·) ∧
    (s ≠ [] → (sortAscending s)[s.length / 2]? = some (median s) ∧ median s ∈ s)

/-- R176: the ranges of a frame, of `OFFSET`, of their difference and of a median, and the sign extension of an `OFFSET`; so the value TARE
writes into `OFFSET` is the median itself (R24). -/
def Obligations.IntegerResultsNeverWrap : Prop :=
  (∀ (p : FramePattern) (o : BitVec 24), -2 ^ 23 ≤ s24 p ∧ s24 p ≤ 2 ^ 23 - 1 ∧ -2 ^ 23 ≤ o.toInt ∧ o.toInt ≤ 2 ^ 23 - 1 ∧
    -(2 ^ 24 - 1) ≤ s24 p - o.toInt ∧ s24 p - o.toInt ≤ 2 ^ 24 - 1) ∧
  (∀ (s : List Int) (lo hi : Int), s ≠ [] → (∀ x ∈ s, lo ≤ x ∧ x ≤ hi) → lo ≤ median s ∧ median s ≤ hi) ∧
  (∀ o : BitVec 24, (sext64OfOffset o).toInt = o.toInt) ∧
  (∀ frames : List FramePattern, frames ≠ [] →
    (BitVec.ofInt 24 (median (frames.map s24))).toInt = median (frames.map s24))

/-- R10: `f64(i)` is exact for |i| ≤ 2^53, and finite. -/
def Obligations.IntegersConvertExactly : Prop :=
  ∀ i : Int, i.natAbs ≤ 2 ^ 53 → isFinite (f64OfInt i) = true ∧ f64Value (f64OfInt i) = i

/-- R10 and R177: `fdiv` of finite numbers, the second not zero, has the sign of the quotient; it is infinite exactly
where the quotient rounds past the largest finite number; else no finite number is nearer to the quotient, and of two
that are equally near it has the even significand. -/
def Obligations.DivisionRoundsToNearestEven : Prop :=
  ∀ a b : F64, isFinite a = true → isFinite b = true → isZero b = false →
    f64Sign (fdiv a b) = (f64Sign a != f64Sign b) ∧
    isNaN (fdiv a b) = false ∧
    (isFinite (fdiv a b) = true ↔ |f64Value a / f64Value b| < 2 ^ 1024 - 2 ^ 970) ∧
    (isFinite (fdiv a b) = true → ∀ x : F64, isFinite x = true →
      |f64Value (fdiv a b) - f64Value a / f64Value b| ≤ |f64Value x - f64Value a / f64Value b| ∧
      (|f64Value (fdiv a b) - f64Value a / f64Value b| = |f64Value x - f64Value a / f64Value b| →
        f64Value x ≠ f64Value (fdiv a b) → f64Fraction (fdiv a b) % 2 = 0))

/-! ## The bit engine (40_bit_engine.md) -/

/-- At a position inside a line sequence every command does the same, in every segment: what the bit engine does. -/
def Obligations.EveryCommandSharesTheBitEngine : Prop :=
  ∀ (i : Instr) (s t : State) (b : Busy), s.seq = .busy b → lineStep s b = some t → exec i s = .next t

/-- R101: a sample that reads 0 ends the wait with no delay; one that reads 1 is followed by `Delay(T_POLL)` and another
sample; `SCK` keeps its level. -/
def Obligations.WaitReadySamplesThenDelays : Prop :=
  ∀ (i : Instr) (s : State) (b : Busy) (rest : List Level), s.seq = .busy b → b.pos = .wait →
    (s.dout = false :: rest → exec i s = .next { s with
      dout := rest, seq := .busy { b with acc := 0, pos := .bitHigh 0, delaying := false } }) ∧
    (s.dout = true :: rest → exec i s = .next { s with
      dout := rest, timer := s.params.tPoll, seq := .busy { b with pos := .wait, delaying := true } })

/-- R103 and R107: a data bit is a rising edge, `Delay(T_SCK_HIGH)`, a falling edge, `Delay(T_SCK_LOW)` and one sample
shifted into `acc` (R104); after bit 23 come `PULSES(GAIN)` trailing pulses (R105), each the same without a sample, whatever samples
are laid out. -/
def Obligations.DataBitAndPulseMicroSteps : Prop :=
  ∀ (i : Instr) (s : State) (b : Busy), s.seq = .busy b →
    (∀ j, b.pos = .bitHigh j → exec i s = .next { s with
      sck := true, timer := s.params.tSckHigh, seq := .busy { b with pos := .bitLow j, delaying := true } }) ∧
    (∀ j, b.pos = .bitLow j → exec i s = .next { s with
      sck := false, timer := s.params.tSckLow, seq := .busy { b with pos := .bitSample j, delaying := true } }) ∧
    (∀ j v rest, b.pos = .bitSample j → s.dout = v :: rest → ∃ p, exec i s = .next { s with
        dout := rest, seq := .busy { b with acc := accumulate b.acc v, pos := p, delaying := false } } ∧
      (∀ h : j.val + 1 < 24, p = .bitHigh ⟨j.val + 1, h⟩) ∧
      (j.val = 23 → s.gain = 128 → p = .pulseHigh 1) ∧ (j.val = 23 → s.gain = 64 → p = .pulseHigh 3) ∧
      (j.val = 23 → s.gain = 32 → p = .pulseHigh 2)) ∧
    (∀ n, b.pos = .pulseHigh n → exec i s = .next { s with
      sck := true, timer := s.params.tSckHigh, seq := .busy { b with pos := .pulseLow n, delaying := true } }) ∧
    (∀ n, b.pos = .pulseLow (n + 2) → exec i s = .next { s with
      sck := false, timer := s.params.tSckLow, seq := .busy { b with pos := .pulseHigh (n + 1), delaying := true } }) ∧
    (b.pos = .pulseLow 1 → exec i s = .next { s with
      sck := false, timer := s.params.tSckLow, seq := .busy { b with pos := .frameEnd, delaying := true } })

/-- R12 and R34: while a `Delay` with `t` units of time left runs and the host does nothing, `t` steps pass; in them nothing but the
timer changes, and only then is the next micro-step due. That a step takes exactly one unit from the timer is the model's choice (log 8). -/
def Obligations.DelayLastsItsTime : Prop :=
  ∀ (s : State) (b : Busy), s.seq = .busy b → b.delaying = true → s.inputs = [] → 1 ≤ s.timer →
    (∀ k, k < s.timer → steps k s = .next { s with timer := s.timer - k }) ∧
    steps s.timer s = .next { s with timer := 0, seq := .busy { b with delaying := false } }

/-- R102 and R58: while every sample reads 1, whatever number of steps is made and whatever the host does but reset, the segment has not
moved past its wait: the sequencer stays busy with it, no register changes, and no response appears on any port. -/
def Obligations.HangKeepsTheSequencerBusy : Prop :=
  ∀ (k m : Nat) (s : State) (b : Busy) (cmd : CmdWord) (arg : ArgWord) (seg : Nat) (i : Instr),
    s.seq = .busy b → b.pos = .wait → s.ports[b.port]? = some (.pending cmd arg seg) →
    decode cmd arg = .ok i → (∀ e ∈ s.inputs, e.rst = false) → s.dout = List.replicate m true → k ≤ m →
    ∃ (t : State) (d : Bool), steps k s = .next t ∧ t.seq = .busy { b with delaying := d } ∧
      t.registers = s.registers ∧ t.ports[b.port]? = some (.pending cmd arg seg) ∧
      ∀ (q : Nat) (status : Status) (result : ResultWord),
        t.ports[q]? = some (.done status result) → s.ports[q]? = some (.done status result)

/-- R108: from a wait, after any number of samples that are not ready, the frame is read: `acc` is the pattern whose bits came MSB first,
there are exactly 24 + `PULSES(GAIN)` pulses, of which the first has no rising edge where `SCK` was 1 (R266), `SCK` is 0 at the end, and
nothing else has changed. That the timer is 0 at the end is the model's choice (log 8: a `Delay` counts down to 0). -/
def Obligations.ReadFrameReadsThePattern : Prop :=
  ∀ (s : State) (b : Busy) (cmd : CmdWord) (arg : ArgWord) (seg : Nat) (i : Instr) (polls : Nat) (p : FramePattern)
    (rest : List Level),
    s.seq = .busy b → b.pos = .wait → b.delaying = false → s.ports[b.port]? = some (.pending cmd arg seg) →
    decode cmd arg = .ok i → s.inputs = [] → (s.gain = 128 ∨ s.gain = 64 ∨ s.gain = 32) →
    s.dout = frameSamples polls p ++ rest →
    ∃ k, steps k s = .next { s with
        dout := rest, sck := false, timer := 0,
        seq := .busy { b with pos := .frameEnd, acc := p, delaying := false } } ∧
      risingEdges k s = (if s.sck then 23 else 24) + pulses s.gain

/-- R110 and R268: after the rising edge of `PowerDownSeq` the line is held high, with the segment in progress, for `T_PD_HOLD` steps
of at least a unit of time, which is 60 µs or more. That a step stands for at least one unit is the model's choice (log 8). -/
def Obligations.PowerDownHoldIsAtLeastSixtyMicroseconds : Prop :=
  ∀ (i : Instr) (s : State) (b : Busy), s.seq = .busy b → b.pos = .holdHigh → s.inputs = [] → s.params.ok = true →
    60 * s.params.perMicrosecond ≤ s.params.tPdHold ∧
    ∃ t, exec i s = .next t ∧ ∀ k, k < s.params.tPdHold → ∃ u, steps k t = .next u ∧ u.sck = true ∧
      u.seq = .busy { b with pos := .holdEnd, delaying := true } ∧ u.pd = s.pd

/-! ## The commands: what each micro-step of their own does -/

/-- R210: INIT refuses a gain outside {128, 64, 32} (0 is 128) before any write; else it sets the level to 0, then drives the line
and writes the registers, then reads a frame, then answers OK with 0; it never tests `INITD`. -/
def Obligations.InitEffect : Prop :=
  ∀ (g : Nat) (s : State) (b : Busy), g ≤ 255 → s.seq = .busy b →
    (b.pos = .start → g ≠ 0 → g ≠ 128 → g ≠ 64 → g ≠ 32 → exec (.init g) s = .next { s with
      ports := s.ports.set b.port (.done .invalidArgument 0), seq := .idle }) ∧
    (b.pos = .start → g = 0 ∨ g = 128 ∨ g = 64 ∨ g = 32 → exec (.init g) s = .next { s with
      sck := false, seq := .busy { b with pos := .initDrive, delaying := false } }) ∧
    (b.pos = .initDrive → exec (.init g) s = .next { s with
      sckOe := true, gain := BitVec.ofNat 8 (if g = 0 then 128 else g), pd := false, offset := 0,
      scale := 0x3FF0000000000000, initd := true, seq := .busy { b with pos := .wait, delaying := false } }) ∧
    (b.pos = .frameEnd → exec (.init g) s = .next { s with
      ports := s.ports.set b.port (.done .ok 0), seq := .idle })

/-- R211: CLEANUP releases the line, clears `SCK` and `INITD`, keeps every other register, and answers OK with 0; a second one answers
NOT_INITIALIZED and changes no register. -/
def Obligations.CleanupEffect : Prop :=
  ∀ (s : State) (b : Busy), s.seq = .busy b → b.pos = .start →
    (s.initd = true → exec .cleanup s = .next { s with
      sckOe := false, sck := false, initd := false, ports := s.ports.set b.port (.done .ok 0), seq := .idle }) ∧
    (s.initd = false → exec .cleanup s = .next { s with
      ports := s.ports.set b.port (.done .notInitialized 0), seq := .idle })

/-- R141: SET_GAIN's first segment refuses, does nothing, or stores the gain; its last segment reads a frame and answers
OK with 0. -/
def Obligations.SetGainEffect : Prop :=
  ∀ (g : Nat) (s : State) (b : Busy), g ≤ 255 → s.seq = .busy b → s.initd = true →
    (b.seg = 0 → b.pos = .start → g ≠ 128 → g ≠ 64 → g ≠ 32 → exec (.setGain g) s = .next { s with
      ports := s.ports.set b.port (.done .invalidArgument 0), seq := .idle }) ∧
    (b.seg = 0 → b.pos = .start → g = 128 ∨ g = 64 ∨ g = 32 → s.gain = BitVec.ofNat 8 g →
      exec (.setGain g) s = .next { s with ports := s.ports.set b.port (.done .ok 0), seq := .idle }) ∧
    (b.seg = 0 → b.pos = .start → g = 128 ∨ g = 64 ∨ g = 32 → s.gain ≠ BitVec.ofNat 8 g →
      ∀ cmd arg k, s.ports[b.port]? = some (.pending cmd arg k) → exec (.setGain g) s = .next { s with
        gain := BitVec.ofNat 8 g, ports := s.ports.set b.port (.pending cmd arg 1), seq := .idle }) ∧
    (b.seg = 2 → b.pos = .start → exec (.setGain g) s = .next { s with
      seq := .busy { b with pos := .wait, delaying := false } }) ∧
    (b.seg = 2 → b.pos = .frameEnd → exec (.setGain g) s = .next { s with
      ports := s.ports.set b.port (.done .ok 0), seq := .idle })

/-- R140 and R142: the answering segments of the getters: GET_GAIN answers `zext_64(GAIN)`, GET_PD answers `zext_64(PD)`; neither
writes a register. GET_PD answers in its first segment when `PD_GETTER_WAKES` is false. -/
def Obligations.GettersAnswerTheirRegister : Prop :=
  ∀ (s : State) (b : Busy), s.seq = .busy b → b.pos = .start → s.initd = true →
    (b.seg = 1 → exec .getGain s = .next { s with
      ports := s.ports.set b.port (.done .ok (BitVec.ofNat 64 s.gain.toNat)), seq := .idle }) ∧
    (b.seg = 1 ∨ (b.seg = 0 ∧ s.params.pdGetterWakes = false) → exec .getPd s = .next { s with
      ports := s.ports.set b.port (.done .ok (if s.pd then 1 else 0)), seq := .idle })

/-- R112 and R143: `SET_PD v` with `v = PD` answers at once with no pulse; else it begins the power-down (low for
`T_SCK_LOW`) or the wake (low, then a frame); at their end `PD` is v and the answer is OK with 0. -/
def Obligations.SetPdEffect : Prop :=
  ∀ (v : Nat) (s : State) (b : Busy), v ≤ 1 → s.seq = .busy b → s.initd = true →
    (b.pos = .start → (v = 1 ↔ s.pd = true) → exec (.setPd v) s = .next { s with
      ports := s.ports.set b.port (.done .ok 0), seq := .idle }) ∧
    (b.pos = .start → v = 1 → s.pd = false → exec (.setPd v) s = .next { s with
      sck := false, timer := s.params.tSckLow, seq := .busy { b with pos := .holdHigh, delaying := true } }) ∧
    (b.pos = .holdHigh → exec (.setPd v) s = .next { s with
      sck := true, timer := s.params.tPdHold, seq := .busy { b with pos := .holdEnd, delaying := true } }) ∧
    (b.pos = .holdEnd → exec (.setPd v) s = .next { s with
      pd := true, ports := s.ports.set b.port (.done .ok 0), seq := .idle }) ∧
    (b.pos = .start → v = 0 → s.pd = true → exec (.setPd v) s = .next { s with
      sck := false, seq := .busy { b with pos := .wait, delaying := false } }) ∧
    (b.pos = .frameEnd → exec (.setPd v) s = .next { s with
      pd := false, ports := s.ports.set b.port (.done .ok 0), seq := .idle })

/-- R113: the auto-wake segment of the five commands that have one: with `PD = 0` it only ends; with `PD = 1` it
pulls the clock low and reads a frame, after which `PD` is 0 and the segment ends. -/
def Obligations.AutoWakeSegmentEffect : Prop :=
  ∀ (i : Instr) (s : State) (b : Busy) (cmd : CmdWord) (arg : ArgWord) (k : Nat),
    s.seq = .busy b → s.initd = true → s.ports[b.port]? = some (.pending cmd arg k) →
    (b.seg = 0 ∧ ((∃ n, i = .tare n) ∨ i = .getWeight ∨ i = .getGain ∨
        (∃ n w, i = .calibrate n w ∧ isFinite w = true ∧ isZero w = false) ∨
        (i = .getPd ∧ s.params.pdGetterWakes = true))) ∨ (b.seg = 1 ∧ ∃ g, i = .setGain g) →
    (b.pos = .start → s.pd = false → exec i s = .next { s with
      ports := s.ports.set b.port (.pending cmd arg (b.seg + 1)), seq := .idle }) ∧
    (b.pos = .start → s.pd = true → exec i s = .next { s with
      sck := false, seq := .busy { b with pos := .wait, delaying := false } }) ∧
    (b.pos = .frameEnd → exec i s = .next { s with
      pd := false, ports := s.ports.set b.port (.pending cmd arg (b.seg + 1)), seq := .idle })

/-- R172: TARE's sampling segment takes frame after frame until it has n; then `OFFSET` is their median and the answer is
OK with its sign extension. -/
def Obligations.TareEffect : Prop :=
  ∀ (n : Nat) (s : State) (b : Busy), n ≤ 255 → s.seq = .busy b → s.initd = true → b.seg = 1 →
    (b.pos = .start → exec (.tare n) s = .next { s with
      seq := .busy { b with pos := .wait, delaying := false } }) ∧
    (b.pos = .frameEnd → b.samples.length + 1 < (if n = 0 then 10 else n) → exec (.tare n) s = .next { s with
      seq := .busy { b with samples := b.samples ++ [s24 b.acc], pos := .wait, delaying := false } }) ∧
    (b.pos = .frameEnd → b.samples.length + 1 = (if n = 0 then 10 else n) →
      ∀ o, o = BitVec.ofInt 24 (median (b.samples ++ [s24 b.acc])) → exec (.tare n) s = .next { s with
        offset := o, ports := s.ports.set b.port (.done .ok (o.signExtend 64)), seq := .idle })

/-- R173: CALIBRATE takes frames adjusted by `OFFSET` until it has n; then `SCALE` is the quotient of their median and w, and the
answer is OK with it, unless the quotient is not finite: OVERFLOW, with `SCALE` unchanged. -/
def Obligations.CalibrateEffect : Prop :=
  ∀ (n : Nat) (w : F64) (s : State) (b : Busy), n ≤ 255 → s.seq = .busy b → s.initd = true → b.seg = 1 →
    (b.pos = .start → exec (.calibrate n w) s = .next { s with
      seq := .busy { b with pos := .wait, delaying := false } }) ∧
    (b.pos = .frameEnd → b.samples.length + 1 < (if n = 0 then 10 else n) → exec (.calibrate n w) s = .next { s with
      seq := .busy { b with samples := b.samples ++ [s24 b.acc - s.offset.toInt], pos := .wait, delaying := false } }) ∧
    (b.pos = .frameEnd → b.samples.length + 1 = (if n = 0 then 10 else n) →
      ∀ sc, sc = fdiv (f64OfInt (median (b.samples ++ [s24 b.acc - s.offset.toInt]))) w →
        (isFinite sc = true → exec (.calibrate n w) s = .next { s with
          scale := sc, ports := s.ports.set b.port (.done .ok sc), seq := .idle }) ∧
        (isFinite sc = false → exec (.calibrate n w) s = .next { s with
          ports := s.ports.set b.port (.done .overflow 0), seq := .idle }))

/-- R174: GET_WEIGHT's sampling segment reports a zero `SCALE` before any frame; else it reads one frame and answers
OK with (frame − `OFFSET`) / `SCALE`, or OVERFLOW where that is not finite; it writes no register. -/
def Obligations.GetWeightEffect : Prop :=
  ∀ (s : State) (b : Busy), s.seq = .busy b → s.initd = true → b.seg = 1 →
    (b.pos = .start → isZero s.scale = true → exec .getWeight s = .next { s with
      ports := s.ports.set b.port (.done .divisionByZero 0), seq := .idle }) ∧
    (b.pos = .start → isZero s.scale = false → exec .getWeight s = .next { s with
      seq := .busy { b with pos := .wait, delaying := false } }) ∧
    (b.pos = .frameEnd → ∀ wt, wt = fdiv (f64OfInt (s24 b.acc - s.offset.toInt)) s.scale →
      (isFinite wt = true → exec .getWeight s = .next { s with
        ports := s.ports.set b.port (.done .ok wt), seq := .idle }) ∧
      (isFinite wt = false → exec .getWeight s = .next { s with
        ports := s.ports.set b.port (.done .overflow 0), seq := .idle }))

/-! ## Errors (60_exceptions.md, 43_lifecycle.md) -/

/-- R213 and R214: a segment of any command but INIT that begins with `INITD = 0` ends the command with NOT_INITIALIZED and result 0,
and writes nothing. -/
def Obligations.UninitialisedSegmentFails : Prop :=
  ∀ (i : Instr) (s : State) (b : Busy), (∀ g, i ≠ .init g) → s.seq = .busy b → b.pos = .start → s.initd = false →
    exec i s = .next { s with ports := s.ports.set b.port (.done .notInitialized 0), seq := .idle }

/-- R173 and R233: CALIBRATE's operand errors, in the first segment, before the wake: NaN or infinite, then zero. -/
def Obligations.CalibrateChecksItsWeightFirst : Prop :=
  ∀ (n : Nat) (w : F64) (s : State) (b : Busy), s.seq = .busy b → b.seg = 0 → b.pos = .start → s.initd = true →
    (isFinite w = false → exec (.calibrate n w) s = .next { s with
      ports := s.ports.set b.port (.done .invalidArgument 0), seq := .idle }) ∧
    (isZero w = true → exec (.calibrate n w) s = .next { s with
      ports := s.ports.set b.port (.done .divisionByZero 0), seq := .idle })

/-- R212: an illegal word's segment, whatever `INITD` is, ends with ILLEGAL_COMMAND and result 0; no register, no line and no timer
changes. `s1` is the state after the edge's pins, `s'` the one after the grant. -/
def Obligations.IllegalWordEndsAtTheGate : Prop :=
  ∀ (s s1 s' : State) (b : Busy) (cmd : CmdWord) (arg : ArgWord) (k : Nat) (e : DecodeError),
    s.clock = .free s1 → s1.seq = .idle → s1.grant = some (s', b) →
    s'.ports[b.port]? = some (.pending cmd arg k) → decode cmd arg = .error e →
    step s = .next { s' with ports := s'.ports.set b.port (.done .illegalCommand 0), seq := .idle } ∧
    s'.registers = s.registers ∧ s'.timer = s.timer ∧ s'.ports = s1.ports

/-- R231 and R13: a micro-step that ends a command with an error has written no register in it: the port's response, with result 0, and the idle
sequencer are all it leaves. -/
def Obligations.ErrorWritesNothing : Prop :=
  ∀ (i : Instr) (s t : State) (b : Busy) (cmd : CmdWord) (arg : ArgWord) (k : Nat) (status : Status)
    (result : ResultWord),
    s.seq = .busy b → s.ports[b.port]? = some (.pending cmd arg k) → exec i s = .next t →
    t.ports[b.port]? = some (.done status result) → status ≠ .ok →
    result = 0 ∧ t = { s with ports := s.ports.set b.port (.done status 0), seq := .idle }

/-- R232: the six codes; no two statuses share one, and 6 to 15 are never produced. -/
def Obligations.StatusCodesAreTheTable : Prop :=
  Status.code .ok = 0 ∧ Status.code .invalidArgument = 1 ∧ Status.code .divisionByZero = 2 ∧
  Status.code .illegalCommand = 3 ∧ Status.code .notInitialized = 4 ∧ Status.code .overflow = 5 ∧
  ∀ (s : State) (p : Nat) (code : BitVec 4) (result : ResultWord),
    response s p = some (code, result) → code.toNat ≤ 5

/-! ## Frames: what no micro-step of a command changes -/

/-- R22 to R28, the writers of each register, over every micro-step of every command: `GAIN` only INIT and SET_GAIN; `OFFSET` only
INIT and TARE; `SCALE` only INIT and CALIBRATE; `INITD` and `SCK_OE` only INIT and CLEANUP; `PD` only INIT, SET_PD and the auto-wake
segments; `SCK` only the `SckWrite` of a line sequence, in its direction, and the 0 written at the start of INIT, SET_PD, CLEANUP and of an
auto-wake segment with `PD = 1`. -/
def Obligations.RegistersHaveOnlyTheirWriters : Prop :=
  ∀ (i : Instr) (s t : State) (b : Busy), s.seq = .busy b → exec i s = .next t →
    ((∀ g, i ≠ .init g) → (∀ g, i ≠ .setGain g) → t.gain = s.gain) ∧
    ((∀ g, i ≠ .init g) → (∀ n, i ≠ .tare n) → t.offset = s.offset) ∧
    ((∀ g, i ≠ .init g) → (∀ n w, i ≠ .calibrate n w) → t.scale = s.scale) ∧
    ((∀ g, i ≠ .init g) → i ≠ .cleanup → t.initd = s.initd ∧ t.sckOe = s.sckOe) ∧
    ((∀ g, i ≠ .init g) → (∀ v, i ≠ .setPd v) → (segmentKinds s.params.pdGetterWakes i)[b.seg]? ≠ some .wake → t.pd = s.pd) ∧
    (t.sck = s.sck ∨
      (t.sck = true ∧ ((∃ j, b.pos = .bitHigh j) ∨ (∃ n, b.pos = .pulseHigh n) ∨ b.pos = .holdHigh)) ∨
      (t.sck = false ∧ ((∃ j, b.pos = .bitLow j) ∨ (∃ n, b.pos = .pulseLow n))) ∨
      (t.sck = false ∧ b.pos = .start ∧ ((∃ g, i = .init g) ∨ (∃ v, i = .setPd v) ∨ i = .cleanup ∨
        ((segmentKinds s.params.pdGetterWakes i)[b.seg]? = some .wake ∧ s.pd = true))))

/-- R55: a micro-step of a command touches no other port, no parameter and no input of the host; its own port stays pending with the
same command or is answered; the sequencer stays with the segment or is idle. -/
def Obligations.MicroStepStaysWithItsPort : Prop :=
  ∀ (i : Instr) (s t : State) (b : Busy) (cmd : CmdWord) (arg : ArgWord),
    s.seq = .busy b → s.ports[b.port]? = some (.pending cmd arg b.seg) → exec i s = .next t →
    (∀ q, q ≠ b.port → t.ports[q]? = s.ports[q]?) ∧ t.ports.length = s.ports.length ∧
    t.params = s.params ∧ t.inputs = s.inputs ∧ t.grants = s.grants ∧
    ((∃ b', t.seq = .busy b' ∧ b'.port = b.port ∧ b'.seg = b.seg ∧ t.ports = s.ports) ∨
      (t.seq = .idle ∧ t.ports[b.port]? = some (.pending cmd arg (b.seg + 1))) ∨
      (t.seq = .idle ∧ ∃ status result, t.ports[b.port]? = some (.done status result)))

/-! ## Ports, arbitration and the step (20_memory.md) -/

/-- When the word at the busy port, or at the port the arbiter grants, decodes to a command, and no `Delay` runs, the step is exec of
that command. Around it the step samples the edge's pins first (`s1` is the state after the edge), and while a `Delay` runs it only
counts the timer down. The model's choices, which the spec does not fix: the edge and the micro-step or grant after it are one step (log 1),
and a step of a `Delay` takes exactly one unit from the timer (log 8). -/
def Obligations.StepRunsTheDecodedCommand : Prop :=
  ∀ (s s1 : State) (cmd : CmdWord) (arg : ArgWord) (k : Nat) (i : Instr),
    (s.inputs = [] ∧ s1 = s) ∨ (∃ e rest, s.inputs = e :: rest ∧ e.rst = false ∧ e.stall = false ∧
      s1 = { s with inputs := rest, ports := clockPorts e.pins s.ports }) →
    decode cmd arg = .ok i →
    (∀ b, s1.seq = .busy b → b.delaying = false → s1.ports[b.port]? = some (.pending cmd arg k) →
      step s = exec i s1) ∧
    (∀ s' b, s1.seq = .idle → s1.grant = some (s', b) → s'.ports[b.port]? = some (.pending cmd arg k) →
      step s = exec i s') ∧
    (∀ b, s1.seq = .busy b → b.delaying = true → step s = .next { s1 with
      timer := s1.timer - 1, seq := .busy { b with delaying := decide (1 < s1.timer) } })

/-- R56: with pending ports there is a grant, whatever choices are laid out; a grant goes to one of them and begins the command's next
segment; each pending port is granted by some choice of the arbiter; with none pending the engine waits, unchanged. -/
def Obligations.ArbiterMayChooseEveryPendingPort : Prop :=
  ∀ (s : State),
    (s.pendingPorts ≠ [] → ∃ s' b, s.grant = some (s', b)) ∧
    (∀ p, p ∈ s.pendingPorts ↔ ∃ cmd arg k, s.ports[p]? = some (.pending cmd arg k)) ∧
    (∀ s' b, s.grant = some (s', b) → ∃ cmd arg, s.ports[b.port]? = some (.pending cmd arg b.seg) ∧
      b.pos = .start ∧ b.samples = [] ∧ s'.seq = .busy b ∧ s'.ports = s.ports ∧ s'.registers = s.registers) ∧
    (∀ p cmd arg k, s.ports[p]? = some (.pending cmd arg k) →
      ∃ c s' b, { s with grants := c :: s.grants }.grant = some (s', b) ∧ b.port = p) ∧
    ((∀ (p : Nat) (cmd : CmdWord) (arg : ArgWord) (k : Nat), s.ports[p]? ≠ some (.pending cmd arg k)) →
      s.seq = .idle → s.inputs = [] → step s = .next s)

/-- R52 to R54 at an edge without reset: an empty port takes an offered command whole, a done port holds its response until it is taken, a
pending port ignores the host; no register and no segment changes by it. The model's choices: an edge may stall the engine, and then this is
the whole step (log 1); a port for which the edge lists no pins sees idle pins and stays as it is (log 4). -/
def Obligations.PortsFollowTheHandshake : Prop :=
  ∀ (s : State) (e : Edge) (rest : List Edge), s.inputs = e :: rest → e.rst = false →
    ∃ t, s.clock = (if e.stall then .held t else .free t) ∧ (e.stall = true → step s = .next t) ∧
      t.registers = s.registers ∧ t.seq = s.seq ∧ t.inputs = rest ∧ t.ports.length = s.ports.length ∧
      (∀ p : Nat, e.pins[p]? = none → t.ports[p]? = s.ports[p]?) ∧
      ∀ (p : Nat) (pins : PortPins), e.pins[p]? = some pins →
      (s.ports[p]? = some .empty → pins.cmdValid = true →
        t.ports[p]? = some (.pending pins.cmdWord pins.cmdArg 0)) ∧
      (s.ports[p]? = some .empty → pins.cmdValid = false → t.ports[p]? = some .empty) ∧
      (∀ status result, s.ports[p]? = some (.done status result) → pins.rspReady = true →
        t.ports[p]? = some .empty) ∧
      (∀ status result, s.ports[p]? = some (.done status result) → pins.rspReady = false →
        t.ports[p]? = some (.done status result)) ∧
      (∀ cmd arg k, s.ports[p]? = some (.pending cmd arg k) → t.ports[p]? = some (.pending cmd arg k))

/-- R52: `cmd_ready` is 1 exactly when the port is `EMPTY`, `rsp_valid` exactly when it is `DONE`. -/
def Obligations.PortSignalsShowThePortState : Prop :=
  ∀ (s : State) (p : Nat),
    (cmdReady s p = true ↔ s.ports[p]? = some .empty) ∧
    (rspValid s p = true ↔ ∃ status result, s.ports[p]? = some (.done status result)) ∧
    (∀ status result, s.ports[p]? = some (.done status result) → response s p = some (status.code, result)) ∧
    pdSckO s = s.sck ∧ pdSckOe s = s.sckOe

/-- R260 and R261: an edge with `rst` 1 gives every register, the sequencer and the ports their reset values, from every state: a hung or
running segment is left, every port is `EMPTY`, no response stays. That the number of ports, the parameters and the coming edges stay is the
model's choice (log 15). -/
def Obligations.ResetDropsEverything : Prop :=
  ∀ (s : State) (e : Edge) (rest : List Edge), s.inputs = e :: rest → e.rst = true →
    ∃ t, step s = .next t ∧ t.registers = ⟨false, 128, false, 0, 0x3FF0000000000000, false, false⟩ ∧ t.seq = .idle ∧
      t.ports = List.replicate s.ports.length .empty ∧ t.inputs = rest ∧ t.params = s.params

/-- R39: the reset values. -/
def Obligations.ResetValues : Prop :=
  State.reset.initd = false ∧ State.reset.gain = 128 ∧ State.reset.pd = false ∧ State.reset.offset.toInt = 0 ∧
  State.reset.scale = 0x3FF0000000000000 ∧ f64Value State.reset.scale = 1 ∧ State.reset.sck = false ∧
  State.reset.sckOe = false ∧ State.reset.seq = .idle ∧ (∀ port ∈ State.reset.ports, port = .empty)

/-- R34 and R39: the delay timer is "never read before it is set": an idle engine's step is the same for every value of it, up to the value a
segment without a `Delay` leaves in it. The reset value 0 is the model's choice (log 8); this says that nothing rests on it. -/
def Obligations.IdleStepIgnoresTheTimer : Prop :=
  ∀ (s t : State) (v : Nat), s.seq = .idle → step s = .next t →
    ∃ u, step { s with timer := v } = .next u ∧ { u with timer := t.timer } = t

/-! ## Invariants -/

/-- The invariant holds after reset. -/
def Obligations.ResetMeetsTheInvariant : Prop := EngineInv State.reset

/-- Every step keeps the invariant: `GAIN` one of 128, 64, 32; `SCALE` finite; `SCK_OE = INITD`; an error response carries 0; the segment in
progress is one of its command's, at a micro-step it has, with the line as the sequence left it. -/
def Obligations.StepKeepsTheInvariant : Prop := ∀ s t : State, EngineInv s → step s = .next t → EngineInv t

/-- R230: from every state of the invariant the engine goes on: no command, no word and no operand makes it stop. -/
def Obligations.EngineNeverStops : Prop := ∀ s : State, EngineInv s → ∃ t, step s = .next t

/-- With one port, R28's invariant is kept by every step: between segments `SCK = PD` while `INITD = 1`. -/
def Obligations.OnePortKeepsTheLineWithPd : Prop :=
  ∀ s t : State, EngineInv s → OnePortLine s → step s = .next t → OnePortLine t

/-- The line invariant holds after reset (one port, the reference value). -/
def Obligations.ResetMeetsTheLineInvariant : Prop := OnePortLine State.reset

/-! ## Whole commands -/

/-- R210 and R263: INIT alone, from any registers. With an accepted gain and a frame to discard: the default registers with the gain asked for,
the line driven low, 24 + `PULSES(g)` pulses. With another gain: INVALID_ARGUMENT, no register and no line changed, no frame read. -/
def Obligations.InitRunsToItsResponse : Prop :=
  ∀ (s : State) (p g polls : Nat) (f : FramePattern) (rest : List Level), Alone s p (.init g) → g ≤ 255 →
    (g = 0 ∨ g = 128 ∨ g = 64 ∨ g = 32 → s.dout = frameSamples polls f ++ rest →
      Completes s p
        { initd := true, gain := BitVec.ofNat 8 (if g = 0 then 128 else g), pd := false, offset := 0,
          scale := 0x3FF0000000000000, sck := false, sckOe := true }
        rest (24 + pulses (BitVec.ofNat 8 (if g = 0 then 128 else g))) .ok 0) ∧
    (g ≠ 0 → g ≠ 128 → g ≠ 64 → g ≠ 32 → Completes s p s.registers s.dout 0 .invalidArgument 0)

/-- R172, source property 4: TARE alone with n frames, the chip awake, or powered down with one frame more to discard first: `OFFSET` is the
median of the decoded frames and the answer its sign extension; 24 + `PULSES(GAIN)` pulses for each frame; `PD` and `SCK` are 0 at the
end, and no other register has changed. -/
def Obligations.TareRunsToItsResponse : Prop :=
  ∀ (s : State) (p n polls : Nat) (dropped : FramePattern) (frames : List (Nat × FramePattern)) (rest : List Level),
    Alone s p (.tare n) → n ≤ 255 → s.initd = true → (s.pd = false → s.sck = false) →
    (s.gain = 128 ∨ s.gain = 64 ∨ s.gain = 32) →
    frames.length = (if n = 0 then 10 else n) →
    s.dout = (if s.pd then frameSamples polls dropped else []) ++ (framesSamples frames ++ rest) →
    Completes s p
      { s.registers with pd := false, sck := false, offset := BitVec.ofInt 24 (median (frames.map fun f => s24 f.2)) } rest
      (((if s.pd then 1 else 0) + frames.length) * (24 + pulses s.gain)) .ok
      ((BitVec.ofInt 24 (median (frames.map fun f => s24 f.2))).signExtend 64)

/-- R173, source property 5: CALIBRATE alone with n frames and a finite non-zero weight, the chip awake, or powered down with one frame more
to discard first: `SCALE` is the quotient of the median of the adjusted frames and w, where that is finite, and the answer is its pattern; else
OVERFLOW with `SCALE` unchanged; `PD` and `SCK` are 0 at the end, and no other register has changed. -/
def Obligations.CalibrateRunsToItsResponse : Prop :=
  ∀ (s : State) (p n polls : Nat) (w sc : F64) (dropped : FramePattern) (frames : List (Nat × FramePattern))
    (rest : List Level),
    Alone s p (.calibrate n w) → n ≤ 255 → isFinite w = true → isZero w = false →
    s.initd = true → (s.pd = false → s.sck = false) → (s.gain = 128 ∨ s.gain = 64 ∨ s.gain = 32) →
    frames.length = (if n = 0 then 10 else n) →
    s.dout = (if s.pd then frameSamples polls dropped else []) ++ (framesSamples frames ++ rest) →
    sc = fdiv (f64OfInt (median (frames.map fun f => s24 f.2 - s.offset.toInt))) w →
    (isFinite sc = true → Completes s p { s.registers with pd := false, sck := false, scale := sc } rest
      (((if s.pd then 1 else 0) + frames.length) * (24 + pulses s.gain)) .ok sc) ∧
    (isFinite sc = false → Completes s p { s.registers with pd := false, sck := false } rest
      (((if s.pd then 1 else 0) + frames.length) * (24 + pulses s.gain)) .overflow 0)

/-- R174, source property 6: GET_WEIGHT alone on an awake chip: one frame is read, and the answer is (frame − `OFFSET`) / `SCALE` where that is
finite, else OVERFLOW; a zero `SCALE` is DIVISION_BY_ZERO with no pulse. No register changes. -/
def Obligations.GetWeightRunsToItsResponse : Prop :=
  ∀ (s : State) (p polls : Nat) (f : FramePattern) (rest : List Level) (wt : F64),
    Alone s p .getWeight → s.initd = true → s.pd = false → s.sck = false →
    (s.gain = 128 ∨ s.gain = 64 ∨ s.gain = 32) → s.dout = frameSamples polls f ++ rest →
    wt = fdiv (f64OfInt (s24 f - s.offset.toInt)) s.scale →
    (isZero s.scale = true → Completes s p s.registers s.dout 0 .divisionByZero 0) ∧
    (isZero s.scale = false → isFinite wt = true → Completes s p s.registers rest (24 + pulses s.gain) .ok wt) ∧
    (isZero s.scale = false → isFinite wt = false → Completes s p s.registers rest (24 + pulses s.gain) .overflow 0)

/-- R140, R113: GET_GAIN alone answers the gain: awake, with no line activity; powered down, after one discarded frame, with `PD` and `SCK` 0 at
the end. -/
def Obligations.GetGainRunsToItsResponse : Prop :=
  ∀ (s : State) (p polls : Nat) (f : FramePattern) (rest : List Level),
    Alone s p .getGain → s.initd = true → (s.gain = 128 ∨ s.gain = 64 ∨ s.gain = 32) →
    (s.pd = false → Completes s p s.registers s.dout 0 .ok (BitVec.ofNat 64 s.gain.toNat)) ∧
    (s.pd = true → s.dout = frameSamples polls f ++ rest →
      Completes s p { s.registers with pd := false, sck := false } rest (24 + pulses s.gain) .ok
        (BitVec.ofNat 64 s.gain.toNat))

/-- R174, R114, source properties 6 and 7: GET_WEIGHT alone on a powered-down chip: exactly one frame is discarded, and it comes first; then one
frame is read; `PD` and `SCK` are 0 at the end, and the answer is (frame − `OFFSET`) / `SCALE` where that is finite, else OVERFLOW. With a zero
`SCALE` the wake's frame is discarded all the same and no other is read: DIVISION_BY_ZERO. -/
def Obligations.GetWeightAfterPowerDownDiscardsOneFrame : Prop :=
  ∀ (s : State) (p polls polls' : Nat) (dropped f : FramePattern) (rest : List Level) (wt : F64),
    Alone s p .getWeight → s.initd = true → s.pd = true →
    (s.gain = 128 ∨ s.gain = 64 ∨ s.gain = 32) →
    s.dout = frameSamples polls dropped ++ (frameSamples polls' f ++ rest) →
    wt = fdiv (f64OfInt (s24 f - s.offset.toInt)) s.scale →
    (isZero s.scale = false → isFinite wt = true →
      Completes s p { s.registers with pd := false, sck := false } rest (2 * (24 + pulses s.gain)) .ok wt) ∧
    (isZero s.scale = false → isFinite wt = false →
      Completes s p { s.registers with pd := false, sck := false } rest (2 * (24 + pulses s.gain)) .overflow 0) ∧
    (isZero s.scale = true →
      Completes s p { s.registers with pd := false, sck := false } (frameSamples polls' f ++ rest) (24 + pulses s.gain)
        .divisionByZero 0)

/-- R141, R144: SET_GAIN alone to a new gain, awake: the gain is stored, one frame with the NEW gain's trailing pulses is discarded. -/
def Obligations.SetGainLatchesTheNewGain : Prop :=
  ∀ (s : State) (p g polls : Nat) (f : FramePattern) (rest : List Level),
    Alone s p (.setGain g) → g = 128 ∨ g = 64 ∨ g = 32 → s.gain ≠ BitVec.ofNat 8 g →
    s.initd = true → s.pd = false → s.sck = false → s.dout = frameSamples polls f ++ rest →
    Completes s p { s.registers with gain := BitVec.ofNat 8 g } rest (24 + pulses (BitVec.ofNat 8 g)) .ok 0

/-- R143: `SET_PD 1` alone on an active chip: one rising edge, `PD = 1` and `SCK = 1` at the end. -/
def Obligations.PowerDownRunsToItsResponse : Prop :=
  ∀ (s : State) (p : Nat), Alone s p (.setPd 1) → s.initd = true → s.pd = false → s.sck = false →
    Completes s p { s.registers with pd := true, sck := true } s.dout 1 .ok 0

/-- R143, R111: `SET_PD 0` alone on a powered-down chip: one discard frame, `PD = 0` and `SCK = 0` at the end. -/
def Obligations.WakeRunsToItsResponse : Prop :=
  ∀ (s : State) (p polls : Nat) (f : FramePattern) (rest : List Level),
    Alone s p (.setPd 0) → s.initd = true → s.pd = true → (s.gain = 128 ∨ s.gain = 64 ∨ s.gain = 32) →
    s.dout = frameSamples polls f ++ rest →
    Completes s p { s.registers with pd := false, sck := false } rest (24 + pulses s.gain) .ok 0

/-- R266: the sampling segment does not test `PD`. Begun while another port has powered the chip down, it reads its frame all the same; the first data
pulse makes no rising edge, and the segment ends with `SCK = 0` while `PD` stays 1. -/
def Obligations.PowerDownHazardLeavesPdStale : Prop :=
  ∀ (s : State) (b : Busy) (cmd : CmdWord) (arg : ArgWord) (polls : Nat) (f : FramePattern) (rest : List Level),
    s.seq = .busy b → b.seg = 1 → b.pos = .start → b.delaying = false → s.ports[b.port]? = some (.pending cmd arg 1) →
    decode cmd arg = .ok .getWeight → s.inputs = [] → s.initd = true → s.pd = true → s.sck = true →
    isZero s.scale = false → (s.gain = 128 ∨ s.gain = 64 ∨ s.gain = 32) → s.dout = frameSamples polls f ++ rest →
    ∃ k t, steps k s = .next t ∧ t.seq = .idle ∧ t.pd = true ∧ t.sck = false ∧ t.dout = rest ∧
      risingEdges k s = 23 + pulses s.gain ∧
      ∃ status result, t.ports[b.port]? = some (.done status result)
end

