-- ==== Sys2Proof/Laws/State.lean ====
section
/-! SUPPORT. What each update of a state leaves in each field: one lemma for a field and an update. -/

namespace Sys2Proof.Machine

variable (s : State)

/-! ### sckWrite -/

@[simp] theorem State.sckWrite_initd (b : Level) : (s.sckWrite b).initd = s.initd := rfl
@[simp] theorem State.sckWrite_gain (b : Level) : (s.sckWrite b).gain = s.gain := rfl
@[simp] theorem State.sckWrite_pd (b : Level) : (s.sckWrite b).pd = s.pd := rfl
@[simp] theorem State.sckWrite_offset (b : Level) : (s.sckWrite b).offset = s.offset := rfl
@[simp] theorem State.sckWrite_scale (b : Level) : (s.sckWrite b).scale = s.scale := rfl
@[simp] theorem State.sckWrite_sck (b : Level) : (s.sckWrite b).sck = b := rfl
@[simp] theorem State.sckWrite_sckOe (b : Level) : (s.sckWrite b).sckOe = s.sckOe := rfl
@[simp] theorem State.sckWrite_seq (b : Level) : (s.sckWrite b).seq = s.seq := rfl
@[simp] theorem State.sckWrite_ports (b : Level) : (s.sckWrite b).ports = s.ports := rfl
@[simp] theorem State.sckWrite_timer (b : Level) : (s.sckWrite b).timer = s.timer := rfl
@[simp] theorem State.sckWrite_params (b : Level) : (s.sckWrite b).params = s.params := rfl
@[simp] theorem State.sckWrite_dout (b : Level) : (s.sckWrite b).dout = s.dout := rfl
@[simp] theorem State.sckWrite_grants (b : Level) : (s.sckWrite b).grants = s.grants := rfl
@[simp] theorem State.sckWrite_draws (b : Level) : (s.sckWrite b).draws = s.draws := rfl
@[simp] theorem State.sckWrite_inputs (b : Level) : (s.sckWrite b).inputs = s.inputs := rfl

/-! ### setBusy -/

@[simp] theorem State.setBusy_initd (b : Busy) : (s.setBusy b).initd = s.initd := rfl
@[simp] theorem State.setBusy_gain (b : Busy) : (s.setBusy b).gain = s.gain := rfl
@[simp] theorem State.setBusy_pd (b : Busy) : (s.setBusy b).pd = s.pd := rfl
@[simp] theorem State.setBusy_offset (b : Busy) : (s.setBusy b).offset = s.offset := rfl
@[simp] theorem State.setBusy_scale (b : Busy) : (s.setBusy b).scale = s.scale := rfl
@[simp] theorem State.setBusy_sck (b : Busy) : (s.setBusy b).sck = s.sck := rfl
@[simp] theorem State.setBusy_sckOe (b : Busy) : (s.setBusy b).sckOe = s.sckOe := rfl
@[simp] theorem State.setBusy_seq (b : Busy) : (s.setBusy b).seq = .busy b := rfl
@[simp] theorem State.setBusy_ports (b : Busy) : (s.setBusy b).ports = s.ports := rfl
@[simp] theorem State.setBusy_timer (b : Busy) : (s.setBusy b).timer = s.timer := rfl
@[simp] theorem State.setBusy_params (b : Busy) : (s.setBusy b).params = s.params := rfl
@[simp] theorem State.setBusy_dout (b : Busy) : (s.setBusy b).dout = s.dout := rfl
@[simp] theorem State.setBusy_grants (b : Busy) : (s.setBusy b).grants = s.grants := rfl
@[simp] theorem State.setBusy_draws (b : Busy) : (s.setBusy b).draws = s.draws := rfl
@[simp] theorem State.setBusy_inputs (b : Busy) : (s.setBusy b).inputs = s.inputs := rfl

/-! ### goto -/

@[simp] theorem State.goto_initd (b : Busy) (p : Pos) : (s.goto b p).initd = s.initd := rfl
@[simp] theorem State.goto_gain (b : Busy) (p : Pos) : (s.goto b p).gain = s.gain := rfl
@[simp] theorem State.goto_pd (b : Busy) (p : Pos) : (s.goto b p).pd = s.pd := rfl
@[simp] theorem State.goto_offset (b : Busy) (p : Pos) : (s.goto b p).offset = s.offset := rfl
@[simp] theorem State.goto_scale (b : Busy) (p : Pos) : (s.goto b p).scale = s.scale := rfl
@[simp] theorem State.goto_sck (b : Busy) (p : Pos) : (s.goto b p).sck = s.sck := rfl
@[simp] theorem State.goto_sckOe (b : Busy) (p : Pos) : (s.goto b p).sckOe = s.sckOe := rfl
@[simp] theorem State.goto_seq (b : Busy) (p : Pos) : (s.goto b p).seq = .busy { b with pos := p, delaying := false } := rfl
@[simp] theorem State.goto_ports (b : Busy) (p : Pos) : (s.goto b p).ports = s.ports := rfl
@[simp] theorem State.goto_timer (b : Busy) (p : Pos) : (s.goto b p).timer = s.timer := rfl
@[simp] theorem State.goto_params (b : Busy) (p : Pos) : (s.goto b p).params = s.params := rfl
@[simp] theorem State.goto_dout (b : Busy) (p : Pos) : (s.goto b p).dout = s.dout := rfl
@[simp] theorem State.goto_grants (b : Busy) (p : Pos) : (s.goto b p).grants = s.grants := rfl
@[simp] theorem State.goto_draws (b : Busy) (p : Pos) : (s.goto b p).draws = s.draws := rfl
@[simp] theorem State.goto_inputs (b : Busy) (p : Pos) : (s.goto b p).inputs = s.inputs := rfl

/-! ### delayThen -/

@[simp] theorem State.delayThen_initd (b : Busy) (n : Nat) (p : Pos) : (s.delayThen b n p).initd = s.initd := rfl
@[simp] theorem State.delayThen_gain (b : Busy) (n : Nat) (p : Pos) : (s.delayThen b n p).gain = s.gain := rfl
@[simp] theorem State.delayThen_pd (b : Busy) (n : Nat) (p : Pos) : (s.delayThen b n p).pd = s.pd := rfl
@[simp] theorem State.delayThen_offset (b : Busy) (n : Nat) (p : Pos) : (s.delayThen b n p).offset = s.offset := rfl
@[simp] theorem State.delayThen_scale (b : Busy) (n : Nat) (p : Pos) : (s.delayThen b n p).scale = s.scale := rfl
@[simp] theorem State.delayThen_sck (b : Busy) (n : Nat) (p : Pos) : (s.delayThen b n p).sck = s.sck := rfl
@[simp] theorem State.delayThen_sckOe (b : Busy) (n : Nat) (p : Pos) : (s.delayThen b n p).sckOe = s.sckOe := rfl
@[simp] theorem State.delayThen_seq (b : Busy) (n : Nat) (p : Pos) : (s.delayThen b n p).seq = .busy { b with pos := p, delaying := true } := rfl
@[simp] theorem State.delayThen_ports (b : Busy) (n : Nat) (p : Pos) : (s.delayThen b n p).ports = s.ports := rfl
@[simp] theorem State.delayThen_timer (b : Busy) (n : Nat) (p : Pos) : (s.delayThen b n p).timer = n := rfl
@[simp] theorem State.delayThen_params (b : Busy) (n : Nat) (p : Pos) : (s.delayThen b n p).params = s.params := rfl
@[simp] theorem State.delayThen_dout (b : Busy) (n : Nat) (p : Pos) : (s.delayThen b n p).dout = s.dout := rfl
@[simp] theorem State.delayThen_grants (b : Busy) (n : Nat) (p : Pos) : (s.delayThen b n p).grants = s.grants := rfl
@[simp] theorem State.delayThen_draws (b : Busy) (n : Nat) (p : Pos) : (s.delayThen b n p).draws = s.draws := rfl
@[simp] theorem State.delayThen_inputs (b : Busy) (n : Nat) (p : Pos) : (s.delayThen b n p).inputs = s.inputs := rfl

/-! ### tick -/

@[simp] theorem State.tick_initd (b : Busy) : (s.tick b).initd = s.initd := rfl
@[simp] theorem State.tick_gain (b : Busy) : (s.tick b).gain = s.gain := rfl
@[simp] theorem State.tick_pd (b : Busy) : (s.tick b).pd = s.pd := rfl
@[simp] theorem State.tick_offset (b : Busy) : (s.tick b).offset = s.offset := rfl
@[simp] theorem State.tick_scale (b : Busy) : (s.tick b).scale = s.scale := rfl
@[simp] theorem State.tick_sck (b : Busy) : (s.tick b).sck = s.sck := rfl
@[simp] theorem State.tick_sckOe (b : Busy) : (s.tick b).sckOe = s.sckOe := rfl
@[simp] theorem State.tick_seq (b : Busy) : (s.tick b).seq = .busy { b with delaying := decide (1 < s.timer) } := rfl
@[simp] theorem State.tick_ports (b : Busy) : (s.tick b).ports = s.ports := rfl
@[simp] theorem State.tick_timer (b : Busy) : (s.tick b).timer = s.timer - 1 := rfl
@[simp] theorem State.tick_params (b : Busy) : (s.tick b).params = s.params := rfl
@[simp] theorem State.tick_dout (b : Busy) : (s.tick b).dout = s.dout := rfl
@[simp] theorem State.tick_grants (b : Busy) : (s.tick b).grants = s.grants := rfl
@[simp] theorem State.tick_draws (b : Busy) : (s.tick b).draws = s.draws := rfl
@[simp] theorem State.tick_inputs (b : Busy) : (s.tick b).inputs = s.inputs := rfl

/-! ### release -/

@[simp] theorem State.release_initd (p : Nat) (port : Port) : (s.release p port).initd = s.initd := rfl
@[simp] theorem State.release_gain (p : Nat) (port : Port) : (s.release p port).gain = s.gain := rfl
@[simp] theorem State.release_pd (p : Nat) (port : Port) : (s.release p port).pd = s.pd := rfl
@[simp] theorem State.release_offset (p : Nat) (port : Port) : (s.release p port).offset = s.offset := rfl
@[simp] theorem State.release_scale (p : Nat) (port : Port) : (s.release p port).scale = s.scale := rfl
@[simp] theorem State.release_sck (p : Nat) (port : Port) : (s.release p port).sck = s.sck := rfl
@[simp] theorem State.release_sckOe (p : Nat) (port : Port) : (s.release p port).sckOe = s.sckOe := rfl
@[simp] theorem State.release_seq (p : Nat) (port : Port) : (s.release p port).seq = .idle := rfl
@[simp] theorem State.release_ports (p : Nat) (port : Port) : (s.release p port).ports = s.ports.set p port := rfl
@[simp] theorem State.release_timer (p : Nat) (port : Port) : (s.release p port).timer = s.timer := rfl
@[simp] theorem State.release_params (p : Nat) (port : Port) : (s.release p port).params = s.params := rfl
@[simp] theorem State.release_dout (p : Nat) (port : Port) : (s.release p port).dout = s.dout := rfl
@[simp] theorem State.release_grants (p : Nat) (port : Port) : (s.release p port).grants = s.grants := rfl
@[simp] theorem State.release_draws (p : Nat) (port : Port) : (s.release p port).draws = s.draws := rfl
@[simp] theorem State.release_inputs (p : Nat) (port : Port) : (s.release p port).inputs = s.inputs := rfl

/-! ### respond -/

@[simp] theorem State.respond_initd (b : Busy) (r : ResultWord) : (s.respond b r).initd = s.initd := rfl
@[simp] theorem State.respond_gain (b : Busy) (r : ResultWord) : (s.respond b r).gain = s.gain := rfl
@[simp] theorem State.respond_pd (b : Busy) (r : ResultWord) : (s.respond b r).pd = s.pd := rfl
@[simp] theorem State.respond_offset (b : Busy) (r : ResultWord) : (s.respond b r).offset = s.offset := rfl
@[simp] theorem State.respond_scale (b : Busy) (r : ResultWord) : (s.respond b r).scale = s.scale := rfl
@[simp] theorem State.respond_sck (b : Busy) (r : ResultWord) : (s.respond b r).sck = s.sck := rfl
@[simp] theorem State.respond_sckOe (b : Busy) (r : ResultWord) : (s.respond b r).sckOe = s.sckOe := rfl
@[simp] theorem State.respond_seq (b : Busy) (r : ResultWord) : (s.respond b r).seq = .idle := rfl
@[simp] theorem State.respond_ports (b : Busy) (r : ResultWord) : (s.respond b r).ports = s.ports.set b.port (.done .ok r) := rfl
@[simp] theorem State.respond_timer (b : Busy) (r : ResultWord) : (s.respond b r).timer = s.timer := rfl
@[simp] theorem State.respond_params (b : Busy) (r : ResultWord) : (s.respond b r).params = s.params := rfl
@[simp] theorem State.respond_dout (b : Busy) (r : ResultWord) : (s.respond b r).dout = s.dout := rfl
@[simp] theorem State.respond_grants (b : Busy) (r : ResultWord) : (s.respond b r).grants = s.grants := rfl
@[simp] theorem State.respond_draws (b : Busy) (r : ResultWord) : (s.respond b r).draws = s.draws := rfl
@[simp] theorem State.respond_inputs (b : Busy) (r : ResultWord) : (s.respond b r).inputs = s.inputs := rfl

/-! ### raise -/

@[simp] theorem State.raise_initd (b : Busy) (st : Status) : (s.raise b st).initd = s.initd := rfl
@[simp] theorem State.raise_gain (b : Busy) (st : Status) : (s.raise b st).gain = s.gain := rfl
@[simp] theorem State.raise_pd (b : Busy) (st : Status) : (s.raise b st).pd = s.pd := rfl
@[simp] theorem State.raise_offset (b : Busy) (st : Status) : (s.raise b st).offset = s.offset := rfl
@[simp] theorem State.raise_scale (b : Busy) (st : Status) : (s.raise b st).scale = s.scale := rfl
@[simp] theorem State.raise_sck (b : Busy) (st : Status) : (s.raise b st).sck = s.sck := rfl
@[simp] theorem State.raise_sckOe (b : Busy) (st : Status) : (s.raise b st).sckOe = s.sckOe := rfl
@[simp] theorem State.raise_seq (b : Busy) (st : Status) : (s.raise b st).seq = .idle := rfl
@[simp] theorem State.raise_ports (b : Busy) (st : Status) : (s.raise b st).ports = s.ports.set b.port (.done st 0) := rfl
@[simp] theorem State.raise_timer (b : Busy) (st : Status) : (s.raise b st).timer = s.timer := rfl
@[simp] theorem State.raise_params (b : Busy) (st : Status) : (s.raise b st).params = s.params := rfl
@[simp] theorem State.raise_dout (b : Busy) (st : Status) : (s.raise b st).dout = s.dout := rfl
@[simp] theorem State.raise_grants (b : Busy) (st : Status) : (s.raise b st).grants = s.grants := rfl
@[simp] theorem State.raise_draws (b : Busy) (st : Status) : (s.raise b st).draws = s.draws := rfl
@[simp] theorem State.raise_inputs (b : Busy) (st : Status) : (s.raise b st).inputs = s.inputs := rfl

/-! ### The beginnings of the line sequences, in terms of the updates above -/

@[simp] theorem State.beginFrame_eq (b : Busy) : s.beginFrame b = s.goto b .wait := rfl
@[simp] theorem State.beginWake_eq (b : Busy) : s.beginWake b = (s.sckWrite false).goto b .wait := rfl
@[simp] theorem State.beginPowerDown_eq (b : Busy) :
    s.beginPowerDown b = (s.sckWrite false).delayThen b s.params.tSckLow .holdHigh := rfl

/-! ### endSegment -/

/-- The port of a segment that ends before the command does: the next segment of its command is pending. -/
theorem State.endSegment_eq (b : Busy) (cmd : CmdWord) (arg : ArgWord) (k : Nat)
    (h : s.ports[b.port]? = some (.pending cmd arg k)) :
    s.endSegment b = s.release b.port (.pending cmd arg (b.seg + 1)) := by
  simp only [State.endSegment, h]

@[simp] theorem State.endSegment_initd (b : Busy) : (s.endSegment b).initd = s.initd := by
  unfold State.endSegment; split <;> rfl
@[simp] theorem State.endSegment_gain (b : Busy) : (s.endSegment b).gain = s.gain := by
  unfold State.endSegment; split <;> rfl
@[simp] theorem State.endSegment_pd (b : Busy) : (s.endSegment b).pd = s.pd := by
  unfold State.endSegment; split <;> rfl
@[simp] theorem State.endSegment_offset (b : Busy) : (s.endSegment b).offset = s.offset := by
  unfold State.endSegment; split <;> rfl
@[simp] theorem State.endSegment_scale (b : Busy) : (s.endSegment b).scale = s.scale := by
  unfold State.endSegment; split <;> rfl
@[simp] theorem State.endSegment_sck (b : Busy) : (s.endSegment b).sck = s.sck := by
  unfold State.endSegment; split <;> rfl
@[simp] theorem State.endSegment_sckOe (b : Busy) : (s.endSegment b).sckOe = s.sckOe := by
  unfold State.endSegment; split <;> rfl
@[simp] theorem State.endSegment_seq (b : Busy) : (s.endSegment b).seq = .idle := by
  unfold State.endSegment; split <;> rfl
@[simp] theorem State.endSegment_timer (b : Busy) : (s.endSegment b).timer = s.timer := by
  unfold State.endSegment; split <;> rfl
@[simp] theorem State.endSegment_params (b : Busy) : (s.endSegment b).params = s.params := by
  unfold State.endSegment; split <;> rfl
@[simp] theorem State.endSegment_dout (b : Busy) : (s.endSegment b).dout = s.dout := by
  unfold State.endSegment; split <;> rfl
@[simp] theorem State.endSegment_grants (b : Busy) : (s.endSegment b).grants = s.grants := by
  unfold State.endSegment; split <;> rfl
@[simp] theorem State.endSegment_draws (b : Busy) : (s.endSegment b).draws = s.draws := by
  unfold State.endSegment; split <;> rfl
@[simp] theorem State.endSegment_inputs (b : Busy) : (s.endSegment b).inputs = s.inputs := by
  unfold State.endSegment; split <;> rfl

end Sys2Proof.Machine
end

