-- ==== Sys2Proof/Laws/Ops.lean ====
section
/-! SUPPORT. What the shared operations do, once each: the line primitives, the bit engine's micro-step, a segment's micro-step,
the edge, the grant, and runs of steps. -/

namespace Sys2Proof.Machine

/-! ## DoutRead -/

theorem State.doutRead_laidOut (s : State) (v : Level) (rest : List Level) (h : s.dout = v :: rest) :
    s.doutRead = (v, { s with dout := rest }) := by
  simp only [State.doutRead, h]

/-- A sample changes nothing but what the environment has laid out, or the count of free draws. -/
theorem State.doutRead_frame (s : State) :
    ∃ v rest n, s.doutRead = (v, { s with dout := rest, draws := n }) := by
  unfold State.doutRead
  split
  · rename_i v rest h
    exact ⟨v, rest, s.draws, rfl⟩
  · rename_i h
    exact ⟨_, [], s.draws + 1, by rw [← h]⟩

/-! ## The bit engine's micro-step -/

/-- A line micro-step keeps everything but the line, the timer, the samples laid out, and the segment's own position and accumulator. -/
theorem lineStep_frame {s t : State} {b : Busy} (h : lineStep s b = some t) :
    t.initd = s.initd ∧ t.gain = s.gain ∧ t.pd = s.pd ∧ t.offset = s.offset ∧ t.scale = s.scale ∧ t.sckOe = s.sckOe ∧
    t.ports = s.ports ∧ t.params = s.params ∧ t.inputs = s.inputs ∧ t.grants = s.grants ∧
    ∃ p d acc, t.seq = .busy { b with pos := p, delaying := d, acc := acc } := by
  obtain ⟨v, rest, n, hd⟩ := s.doutRead_frame
  unfold lineStep at h
  split at h <;> cases h
  · cases v <;> simp [waitReadyStep, hd]
  all_goals simp [bitSampleStep, hd]

/-! ## A segment's micro-step -/

variable {s : State} {b : Busy} {own : SegmentSteps}

theorem segmentStep_line {t : State} (h : lineStep s b = some t) : segmentStep s b own = .next t := by
  simp [segmentStep, h]

theorem segmentStep_start (h : b.pos = .start) : segmentStep s b own = own.start := by
  simp [segmentStep, lineStep, h]

theorem segmentStep_initDrive (h : b.pos = .initDrive) : segmentStep s b own = own.initDrive := by
  simp [segmentStep, lineStep, h]

theorem segmentStep_frameEnd (h : b.pos = .frameEnd) : segmentStep s b own = own.frameEnd := by
  simp [segmentStep, lineStep, h]

theorem segmentStep_holdEnd (h : b.pos = .holdEnd) : segmentStep s b own = own.holdEnd := by
  simp [segmentStep, lineStep, h]

/-- A segment's micro-step is the bit engine's, or the command's own at one of its own positions. -/
theorem segmentStep_cases {r : Result} (h : segmentStep s b own = r) :
    (∃ t, lineStep s b = some t ∧ r = .next t) ∨ (b.pos = .start ∧ r = own.start) ∨
    (b.pos = .initDrive ∧ r = own.initDrive) ∨ (b.pos = .frameEnd ∧ r = own.frameEnd) ∨
    (b.pos = .holdEnd ∧ r = own.holdEnd) := by
  subst h
  unfold segmentStep
  cases hp : b.pos <;> simp [lineStep, hp]

/-- The lifecycle test lets the segment go on, or ends the command with NOT_INITIALIZED. -/
theorem requireInitd_cases {go r : Result} (h : requireInitd s b go = r) :
    (s.initd = true ∧ r = go) ∨ (s.initd = false ∧ r = .next (s.raise b .notInitialized)) := by
  subst h
  unfold requireInitd
  cases s.initd <;> simp

@[simp] theorem onSegment_busy (f : Busy → Result) (h : s.seq = .busy b) : onSegment s f = f b := by
  simp [onSegment, h]

/-! ## The edge -/

theorem State.clock_quiet (h : s.inputs = []) : s.clock = .free s := by
  simp [State.clock, h]

/-- With no host activity, a step is the engine's. -/
theorem step_quiet (h : s.inputs = []) : step s = engineStep s := by
  simp [step, clockedStep, State.clock_quiet h]

theorem clockPorts_length (pins : List PortPins) (ports : List Port) :
    (clockPorts pins ports).length = ports.length := by
  induction ports generalizing pins with
  | nil => cases pins <;> simp [clockPorts]
  | cons port ports ih => cases pins <;> simp [clockPorts, ih]

/-- Port p after an edge. -/
theorem clockPorts_getElem? (pins : List PortPins) (ports : List Port) (p : Nat) :
    (clockPorts pins ports)[p]? = match pins[p]?, ports[p]? with
      | some q, some port => some (clockPort q port)
      | none, some port => some port
      | some _, none => none
      | none, none => none := by
  induction ports generalizing pins p with
  | nil => cases pins[p]? <;> cases pins <;> simp [clockPorts]
  | cons port ports ih =>
    cases pins with
    | nil => cases h : (port :: ports)[p]? <;> simp [clockPorts, h]
    | cons q pins => cases p <;> simp [clockPorts, ih]

/-- The host cannot touch a pending port. -/
theorem clockPorts_pending {pins : List PortPins} {ports : List Port} {p : Nat} {cmd : CmdWord} {arg : ArgWord} {k : Nat}
    (h : ports[p]? = some (.pending cmd arg k)) : (clockPorts pins ports)[p]? = some (.pending cmd arg k) := by
  rw [clockPorts_getElem?, h]
  cases pins[p]? <;> simp [clockPort]

/-! ## The grant -/

theorem mem_pendingFrom {p n : Nat} {ports : List Port} :
    p ∈ pendingFrom n ports ↔ ∃ cmd arg k, n ≤ p ∧ ports[p - n]? = some (.pending cmd arg k) := by
  induction ports generalizing n with
  | nil => simp [pendingFrom]
  | cons port ports ih =>
    have key : p ∈ pendingFrom (n + 1) ports ↔
        ∃ cmd arg k, n < p ∧ (port :: ports)[p - n]? = some (.pending cmd arg k) := by
      rw [ih]
      constructor
      · rintro ⟨cmd, arg, k, hle, h⟩
        refine ⟨cmd, arg, k, hle, ?_⟩
        rw [show p - n = (p - (n + 1)) + 1 by omega]
        simpa using h
      · rintro ⟨cmd, arg, k, hlt, h⟩
        refine ⟨cmd, arg, k, hlt, ?_⟩
        rw [show p - n = (p - (n + 1)) + 1 by omega] at h
        simpa using h
    cases port with
    | pending cmd arg k =>
      simp only [pendingFrom, List.mem_cons, key]
      constructor
      · rintro (rfl | ⟨c, a, j, hlt, h⟩)
        · exact ⟨cmd, arg, k, le_refl _, by simp⟩
        · exact ⟨c, a, j, le_of_lt hlt, h⟩
      · rintro ⟨c, a, j, hle, h⟩
        rcases Nat.eq_or_lt_of_le hle with rfl | hlt
        · exact .inl rfl
        · exact .inr ⟨c, a, j, hlt, h⟩
    | empty =>
      simp only [pendingFrom, key]
      constructor
      · rintro ⟨c, a, j, hlt, h⟩; exact ⟨c, a, j, le_of_lt hlt, h⟩
      · rintro ⟨c, a, j, hle, h⟩
        rcases Nat.eq_or_lt_of_le hle with rfl | hlt
        · simp at h
        · exact ⟨c, a, j, hlt, h⟩
    | done st r =>
      simp only [pendingFrom, key]
      constructor
      · rintro ⟨c, a, j, hlt, h⟩; exact ⟨c, a, j, le_of_lt hlt, h⟩
      · rintro ⟨c, a, j, hle, h⟩
        rcases Nat.eq_or_lt_of_le hle with rfl | hlt
        · simp at h
        · exact ⟨c, a, j, hlt, h⟩

/-- The ports the arbiter chooses from. -/
theorem State.mem_pendingPorts {p : Nat} :
    p ∈ s.pendingPorts ↔ ∃ cmd arg k, s.ports[p]? = some (.pending cmd arg k) := by
  simp [State.pendingPorts, mem_pendingFrom]

theorem chosenPort_mem {c p : Nat} {ps : List Nat} (h : chosenPort c ps = some p) : p ∈ ps := by
  unfold chosenPort at h
  split at h
  · cases h
  · cases h; simp
  · exact List.mem_of_getElem? h

/-- The arbiter's choice changes nothing but what is laid out for it, or the count of free draws. -/
theorem State.drawGrant_frame (s : State) :
    ∃ c rest n, s.drawGrant = (c, { s with grants := rest, draws := n }) := by
  unfold State.drawGrant
  split
  · rename_i c rest h
    exact ⟨c, rest, s.draws, rfl⟩
  · rename_i h
    exact ⟨_, [], s.draws + 1, by rw [← h]⟩

/-- Everything a grant can do: a pending port's command begins its next segment, and nothing else changes but what is laid out for the
arbiter. -/
theorem State.grant_spec {s' : State} (h : s.grant = some (s', b)) :
    ∃ cmd arg rest n, s.ports[b.port]? = some (.pending cmd arg b.seg) ∧
      b.pos = .start ∧ b.delaying = false ∧ b.acc = 0 ∧ b.samples = [] ∧
      s' = { s with grants := rest, draws := n, seq := .busy b } := by
  unfold State.grant at h
  split at h
  · cases h
  · rename_i ps hps
    obtain ⟨c, rest, n, hd⟩ := s.drawGrant_frame
    rw [hd] at h
    simp only [Option.map_eq_some_iff] at h
    obtain ⟨p, hp, he⟩ := h
    have hm := chosenPort_mem hp
    obtain ⟨cmd, arg, k, hk⟩ := State.mem_pendingPorts.mp hm
    cases he
    exact ⟨cmd, arg, rest, n, by simp [State.granted, hk, Port.nextSegment], rfl, rfl, rfl, rfl, rfl⟩

/-- A grant is made by an idle sequencer only: an edge that leaves the engine free to step leaves the sequencer as it was. -/
theorem Grants.idle {s : State} {p : Nat} (h : Grants s p) : s.seq = .idle := by
  obtain ⟨s1, -, -, hc, hi, -, -⟩ := h
  unfold State.clock at hc
  split at hc
  · cases hc; exact hi
  · split at hc
    · cases hc
    · simp only at hc
      split at hc <;> cases hc
      exact hi

/-- A run whose sequencer stays busy from some step on, as a hung one does, is fair. -/
theorem weaklyFair_of_busy {run : Nat → State} {n : Nat} (h : ∀ m, n ≤ m → (run m).seq ≠ .idle) : WeaklyFair run := by
  intro p k _ hrec
  obtain ⟨m, q, hm, hg⟩ := hrec (max k n) (le_max_left _ _)
  exact absurd hg.idle (h m (le_trans (le_max_right _ _) hm))

/-! ## Runs -/

theorem steps_add (m n : Nat) (s t : State) (h : steps m s = .next t) : steps (m + n) s = steps n t := by
  induction m generalizing s with
  | zero => cases h; simp
  | succ m ih =>
    rw [show m + 1 + n = (m + n) + 1 by omega]
    simp only [steps] at h ⊢
    split at h
    · exact ih _ h
    · cases h
    · cases h

theorem risingEdges_add (m n : Nat) (s t : State) (h : steps m s = .next t) :
    risingEdges (m + n) s = risingEdges m s + risingEdges n t := by
  induction m generalizing s with
  | zero => cases h; simp [risingEdges]
  | succ m ih =>
    rw [show m + 1 + n = (m + n) + 1 by omega]
    simp only [steps, risingEdges] at h ⊢
    split at h
    · rw [ih _ h]; omega
    · cases h
    · cases h

end Sys2Proof.Machine
end

