-- ==== Sys2Proof/Laws/Exec.lean ====
section
/-! SUPPORT. Everything a command's micro-step can do, said once: the bit engine's part, or one of five ways a command's own
micro-step leaves the machine. -/

namespace Sys2Proof.Machine

/-- A command's own register work touches the registers only: not the ports, nor the timer, nor anything of the environment. -/
structure SameOutside (s s' : State) : Prop where
  ports : s'.ports = s.ports
  timer : s'.timer = s.timer
  params : s'.params = s.params
  dout : s'.dout = s.dout
  grants : s'.grants = s.grants
  draws : s'.draws = s.draws
  inputs : s'.inputs = s.inputs

/-- The register work of a command, and how its micro-step leaves the machine. -/
inductive OwnEffect (s : State) (b : Busy) : State → Prop where
  /-- The command ends with an error; nothing was written. -/
  | error (status : Status) : OwnEffect s b (s.raise b status)
  /-- The command ends with status OK. -/
  | answer (s' : State) (h : SameOutside s s') (result : ResultWord) : OwnEffect s b (s'.respond b result)
  /-- The segment ends, and the command has another. -/
  | segment (s' : State) (h : SameOutside s s') : OwnEffect s b (s'.endSegment b)
  /-- The segment goes on at once. -/
  | goesOn (s' : State) (h : SameOutside s s') (samples : List Int) (p : Pos) :
      OwnEffect s b (s'.goto { b with samples := samples } p)
  /-- The segment goes on after a `Delay`. -/
  | delays (s' : State) (h : SameOutside s s') (n : Nat) (p : Pos) : OwnEffect s b (s'.delayThen b n p)

theorem SameOutside.refl (s : State) : SameOutside s s := ⟨rfl, rfl, rfl, rfl, rfl, rfl, rfl⟩

variable {s t : State} {b : Busy}

theorem ownEffect_requireInitd {go : Result} (h : requireInitd s b go = .next t)
    (hgo : go = .next t → OwnEffect s b t) : OwnEffect s b t := by
  rcases requireInitd_cases h with ⟨-, e⟩ | ⟨-, e⟩
  · exact hgo e.symm
  · cases e; exact .error _

/-- A segment's micro-step is the bit engine's, or has an effect of the command's own. -/
theorem segmentStep_effect {own : SegmentSteps} (h : segmentStep s b own = .next t)
    (h1 : own.start = .next t → OwnEffect s b t) (h2 : own.initDrive = .next t → OwnEffect s b t)
    (h3 : own.frameEnd = .next t → OwnEffect s b t) (h4 : own.holdEnd = .next t → OwnEffect s b t) :
    lineStep s b = some t ∨ OwnEffect s b t := by
  rcases segmentStep_cases h with ⟨u, hu, e⟩ | ⟨-, e⟩ | ⟨-, e⟩ | ⟨-, e⟩ | ⟨-, e⟩
  · cases e; exact .inl hu
  · exact .inr (h1 e.symm)
  · exact .inr (h2 e.symm)
  · exact .inr (h3 e.symm)
  · exact .inr (h4 e.symm)

theorem collectSample_effect {n : Nat} {x : Int} {finish : List Int → State}
    (hf : ∀ l, OwnEffect s b (finish l)) : OwnEffect s b (collectSample n x s b finish) := by
  unfold collectSample
  simp only
  split
  · exact .goesOn s (.refl s) _ .wait
  · exact hf _

theorem autoWake_effect {check : Option Status} (h : autoWake s b check = .next t) :
    lineStep s b = some t ∨ OwnEffect s b t := by
  refine segmentStep_effect h ?_ ?_ ?_ ?_
  · intro e
    refine ownEffect_requireInitd e fun e => ?_
    cases check with
    | some status => cases e; exact .error _
    | none =>
      simp only at e
      split at e <;> cases e
      · exact OwnEffect.goesOn (s := s) (b := b) (s.sckWrite false) ⟨rfl, rfl, rfl, rfl, rfl, rfl, rfl⟩ b.samples .wait
      · exact .segment s (.refl s)
  · intro e; cases e
  · intro e; cases e; exact .segment _ ⟨rfl, rfl, rfl, rfl, rfl, rfl, rfl⟩
  · intro e; cases e

theorem answerPd_effect (h : answerPd s b = .next t) : lineStep s b = some t ∨ OwnEffect s b t := by
  refine segmentStep_effect h ?_ ?_ ?_ ?_
  · intro e
    refine ownEffect_requireInitd e fun e => ?_
    cases e; exact .answer s (.refl s) _
  all_goals intro e; cases e

/-- A micro-step of a command is the bit engine's, or has one of the five effects of a command's own. -/
theorem exec_effect {i : Instr} (hb : s.seq = .busy b) (h : exec i s = .next t) :
    lineStep s b = some t ∨ OwnEffect s b t := by
  cases i with
  | init g =>
    simp only [exec, execInit, onSegment_busy _ hb] at h
    refine segmentStep_effect h ?_ ?_ ?_ ?_ <;> intro e <;> cases e
    · unfold beginInit
      split
      · exact OwnEffect.goesOn (s := s) (b := b) (s.sckWrite false) ⟨rfl, rfl, rfl, rfl, rfl, rfl, rfl⟩ b.samples .initDrive
      · exact .error _
    · exact OwnEffect.goesOn (s := s) (b := b) (initRegisters (initGain g) s) ⟨rfl, rfl, rfl, rfl, rfl, rfl, rfl⟩ b.samples .wait
    · exact .answer s (.refl s) _
  | tare n =>
    simp only [exec, execTare, onSegment_busy _ hb] at h
    split at h
    · exact autoWake_effect h
    · refine segmentStep_effect h ?_ ?_ ?_ ?_ <;> intro e
      · refine ownEffect_requireInitd e fun e => ?_
        cases e; exact .goesOn s (.refl s) b.samples .wait
      · cases e
      · cases e
        exact collectSample_effect fun l => by
          exact OwnEffect.answer (s := s) (b := b) { s with offset := BitVec.ofInt 24 (median l) } ⟨rfl, rfl, rfl, rfl, rfl, rfl, rfl⟩ _
      · cases e
  | calibrate n w =>
    simp only [exec, execCalibrate, onSegment_busy _ hb] at h
    split at h
    · exact autoWake_effect h
    · refine segmentStep_effect h ?_ ?_ ?_ ?_ <;> intro e
      · refine ownEffect_requireInitd e fun e => ?_
        cases e; exact .goesOn s (.refl s) b.samples .wait
      · cases e
      · cases e
        refine collectSample_effect fun l => ?_
        unfold finishCalibrate
        simp only
        split
        · exact OwnEffect.answer (s := s) (b := b) { s with scale := fdiv (f64OfInt (median l)) w } ⟨rfl, rfl, rfl, rfl, rfl, rfl, rfl⟩ _
        · exact .error _
      · cases e
  | getWeight =>
    simp only [exec, execGetWeight, onSegment_busy _ hb] at h
    split at h
    · exact autoWake_effect h
    · refine segmentStep_effect h ?_ ?_ ?_ ?_ <;> intro e
      · refine ownEffect_requireInitd e fun e => ?_
        cases e
        split
        · exact .error _
        · exact .goesOn s (.refl s) b.samples .wait
      · cases e
      · cases e
        unfold finishWeight
        simp only
        split
        · exact .answer s (.refl s) _
        · exact .error _
      · cases e
  | getGain =>
    simp only [exec, execGetGain, onSegment_busy _ hb] at h
    split at h
    · exact autoWake_effect h
    · refine segmentStep_effect h ?_ ?_ ?_ ?_ <;> intro e
      · refine ownEffect_requireInitd e fun e => ?_
        cases e; exact .answer s (.refl s) _
      all_goals cases e
  | setGain g =>
    simp only [exec, execSetGain, onSegment_busy _ hb] at h
    split at h
    · refine segmentStep_effect h ?_ ?_ ?_ ?_ <;> intro e
      · refine ownEffect_requireInitd e fun e => ?_
        cases e
        unfold storeGain
        split
        · exact .error _
        · split
          · exact .answer s (.refl s) _
          · exact .segment _ ⟨rfl, rfl, rfl, rfl, rfl, rfl, rfl⟩
      all_goals cases e
    · exact autoWake_effect h
    · refine segmentStep_effect h ?_ ?_ ?_ ?_ <;> intro e
      · refine ownEffect_requireInitd e fun e => ?_
        cases e; exact .goesOn s (.refl s) b.samples .wait
      · cases e
      · cases e; exact .answer s (.refl s) _
      · cases e
  | getPd =>
    simp only [exec, execGetPd, onSegment_busy _ hb] at h
    split at h
    · split at h
      · exact autoWake_effect h
      · exact answerPd_effect h
    · exact answerPd_effect h
  | setPd v =>
    simp only [exec, execSetPd, onSegment_busy _ hb] at h
    refine segmentStep_effect h ?_ ?_ ?_ ?_ <;> intro e
    · refine ownEffect_requireInitd e fun e => ?_
      cases e
      unfold beginPowerTransition
      split
      · exact .answer s (.refl s) _
      · split
        · exact OwnEffect.delays (s := s) (b := b) (s.sckWrite false) ⟨rfl, rfl, rfl, rfl, rfl, rfl, rfl⟩ s.params.tSckLow .holdHigh
        · exact OwnEffect.goesOn (s := s) (b := b) (s.sckWrite false) ⟨rfl, rfl, rfl, rfl, rfl, rfl, rfl⟩ b.samples .wait
    · cases e
    · cases e; exact OwnEffect.answer (s := s) (b := b) { s with pd := false } ⟨rfl, rfl, rfl, rfl, rfl, rfl, rfl⟩ _
    · cases e; exact OwnEffect.answer (s := s) (b := b) { s with pd := true } ⟨rfl, rfl, rfl, rfl, rfl, rfl, rfl⟩ _
  | cleanup =>
    simp only [exec, execCleanup, onSegment_busy _ hb] at h
    refine segmentStep_effect h ?_ ?_ ?_ ?_ <;> intro e
    · refine ownEffect_requireInitd e fun e => ?_
      cases e
      exact OwnEffect.answer (s := s) (b := b) { s with sckOe := false, sck := false, initd := false } ⟨rfl, rfl, rfl, rfl, rfl, rfl, rfl⟩ _
    all_goals cases e

end Sys2Proof.Machine
end

