-- ==== Sys2Proof/Laws/PerInstr.lean ====
section
/-! SUPPORT. A statement about every command as syntax, one lemma per constructor. Family `OpcodeField`: the word of a
well-formed command carries its row's opcode, and only bits of the fields that opcode uses (30_encoding.md R71, R73). -/

namespace Sys2Proof.Laws.OpcodeField

/-- The encoded word has the opcode of the command's row and 0 in every must-be-zero bit. -/
def Statement (i : Instr) : Prop :=
  i.wellFormed = true →
    fieldOp (encodeWord i) = (rowOf i).opcode ∧ encodeWord i &&& ~~~usedBits (rowOf i).opcode = 0

/-- A statement about every value of an 8-bit field, from its 256 cases. -/
theorem forall_byte {P : Nat → Prop} (h : ∀ x : Fin 256, P x.val) (x : Nat) (hx : fitsByte x = true) : P x :=
  h ⟨x, by simp [fitsByte] at hx; omega⟩

theorem init (g : Nat) : Statement (.init g) :=
  forall_byte (P := fun g => fieldOp (encodeWord (.init g)) = rowInit.opcode ∧
    encodeWord (.init g) &&& ~~~usedBits rowInit.opcode = 0) (by decide +kernel) g

theorem tare (n : Nat) : Statement (.tare n) :=
  forall_byte (P := fun n => fieldOp (encodeWord (.tare n)) = rowTare.opcode ∧
    encodeWord (.tare n) &&& ~~~usedBits rowTare.opcode = 0) (by decide +kernel) n

theorem calibrate (n : Nat) (w : F64) : Statement (.calibrate n w) :=
  forall_byte (P := fun n => fieldOp (encodeWord (.calibrate n 0)) = rowCalibrate.opcode ∧
    encodeWord (.calibrate n 0) &&& ~~~usedBits rowCalibrate.opcode = 0) (by decide +kernel) n

theorem getWeight : Statement .getWeight := fun _ => by decide

theorem getGain : Statement .getGain := fun _ => by decide

theorem setGain (g : Nat) : Statement (.setGain g) :=
  forall_byte (P := fun g => fieldOp (encodeWord (.setGain g)) = rowSetGain.opcode ∧
    encodeWord (.setGain g) &&& ~~~usedBits rowSetGain.opcode = 0) (by decide +kernel) g

theorem getPd : Statement .getPd := fun _ => by decide

theorem setPd (v : Nat) : Statement (.setPd v) := fun h => by
  have hv : v = 0 ∨ v = 1 := by simp [Instr.wellFormed, fitsBit] at h; omega
  rcases hv with rfl | rfl <;> decide

theorem cleanup : Statement .cleanup := fun _ => by decide

end Sys2Proof.Laws.OpcodeField
end

