-- ==== Sys2Proof/Tests/Slice0.lean ====
section
/-! SUPPORT. The model's own tests: ill-formed commands refused, a written-out word of every command, single steps with the results
of 95_test_vectors.md, and, for every statement with hypotheses, a witness that meets them. -/

namespace Sys2Proof.Tests

open Sys2Proof Sys2Proof.Machine

/-! ## Ill-formed commands (30_encoding.md R84; 95_test_vectors.md part 2.1: "`TARE 256` refused by the assembler") -/

theorem test_init_256_ill_formed : (Instr.init 256).wellFormed = false := by decide
theorem test_tare_256_ill_formed : (Instr.tare 256).wellFormed = false := by decide
theorem test_calibrate_256_ill_formed : (Instr.calibrate 256 0).wellFormed = false := by decide
theorem test_setGain_256_ill_formed : (Instr.setGain 256).wellFormed = false := by decide
theorem test_setPd_2_ill_formed : (Instr.setPd 2).wellFormed = false := by decide

/-! ## Decoding: the source lines and words of 95_test_vectors.md part 2.1, written bit by bit from the fields of R71 -/

theorem test_decode_init_64 : decode 0b0000000_0_01000000_00000000_0000_0001 0 = .ok (.init 64) := by decide
theorem test_decode_tare_5 : decode 0b0000000_0_00000000_00000101_0000_0010 0 = .ok (.tare 5) := by decide
theorem test_decode_calibrate_3 : decode 0b0000000_0_00000000_00000011_0000_0011 0x4059000000000000 =
    .ok (.calibrate 3 0x4059000000000000) := by decide
theorem test_decode_getWeight : decode 0b0000000_0_00000000_00000000_0000_0100 0 = .ok .getWeight := by decide
theorem test_decode_getGain_any_arg : decode 0b0000000_0_00000000_00000000_0000_0101 0xFFFFFFFFFFFFFFFF =
    .ok .getGain := by decide
theorem test_decode_setGain_32 : decode 0b0000000_0_00100000_00000000_0000_0110 0 = .ok (.setGain 32) := by decide
theorem test_decode_getPd : decode 0b0000000_0_00000000_00000000_0000_0111 0 = .ok .getPd := by decide
theorem test_decode_setPd_1 : decode 0b0000000_1_00000000_00000000_0000_1000 0 = .ok (.setPd 1) := by decide
theorem test_decode_cleanup : decode 0b0000000_0_00000000_00000000_0000_1001 0 = .ok .cleanup := by decide

/-- Vectors E1 to E4: no such opcode. -/
theorem test_decode_reserved : decode 0x00000000 0 = .error .reservedOpcode ∧ decode 0x0000000A 0 = .error .reservedOpcode ∧
    decode 0x0000000F 0 = .error .reservedOpcode ∧ decode 0x00000010 0 = .error .reservedOpcode := by decide

/-- Vectors E5 to E10: a must-be-zero bit. -/
theorem test_decode_must_be_zero : decode 0x00000014 0 = .error .mustBeZeroBit ∧ decode 0x00000104 0 = .error .mustBeZeroBit ∧
    decode 0x02000001 0 = .error .mustBeZeroBit ∧ decode 0x01000006 0 = .error .mustBeZeroBit ∧
    decode 0x00800008 0 = .error .mustBeZeroBit ∧ decode 0x80000005 0 = .error .mustBeZeroBit := by decide

/-- The operand word of an opcode-table number stands above the command word. -/
theorem test_table_word : decodeTableWord 96 (0x4059000000000000 * 2 ^ 32 + 0x303) =
    some (.calibrate 3 0x4059000000000000) := by decide +kernel

/-! ## A small state -/

/-- A segment in progress on port 0. -/
def seg (k : Nat) (pos : Pos) : Busy := ⟨0, k, pos, false, 0, []⟩

/-- One unit a microsecond; times 2, 1, 3 and 60; GET_PD does not wake. -/
def times : Params := ⟨1, 2, 1, 3, 60, 0, false⟩

/-- An initialised engine, awake, nothing in progress. -/
def ready : State := { State.reset with params := times, initd := true, sckOe := true }

/-- The same with the segment `b` of the command `cmd`, `arg` in progress on port 0. -/
def busyWith (b : Busy) (cmd : CmdWord) (arg : ArgWord := 0) : State :=
  { ready with seq := .busy b, ports := [.pending cmd arg b.seg] }

/-- The same with the command on port 0 not begun. -/
def queued (cmd : CmdWord) (arg : ArgWord := 0) : State := { ready with ports := [.pending cmd arg 0] }

/-- The state a step ends in. -/
def after : Result → State
  | .next t => t
  | .fault _ => State.reset
  | .refused _ => State.reset

/-! ## One step -/

/-- Vector L5, the register part: from `1, 64, 1, 11, 2.0` to the defaults. -/
theorem test_init_registers : (after (exec (.init 0) { busyWith (seg 0 .initDrive) 1 with
    gain := 64, pd := true, offset := 11, scale := 0x4000000000000000 })).registers =
    ⟨true, 128, false, 0, 0x3FF0000000000000, false, true⟩ := by decide

/-- Vector L4. -/
theorem test_init_100_refused : (after (step { queued 0x00640001 with initd := false, sckOe := false })).ports =
    [.done .invalidArgument 0] := by decide

/-- Vector K1, the last frame: values 10, 12, 11, 1000, then 9. -/
theorem test_tare_median : (after (exec (.tare 5) (busyWith { seg 1 .frameEnd with acc := 9, samples := [10, 12, 11, 1000] }
    0x502))).ports = [.done .ok 0xB] := by decide

/-- Vector K3: the most negative frame. -/
theorem test_tare_most_negative : (after (exec (.tare 1) (busyWith { seg 1 .frameEnd with acc := 0x800000 } 0x102))).ports =
    [.done .ok 0xFFFFFFFFFF800000] := by decide

/-- Vector K7, the last frame: `OFFSET` 11, frames 209, 213, 211. -/
theorem test_calibrate_quotient : (after (exec (.calibrate 3 0x4059000000000000) { busyWith
    { seg 1 .frameEnd with acc := 211, samples := [198, 202] } 0x303 0x4059000000000000 with offset := 11 })).scale =
    0x4000000000000000 := by decide +kernel

/-- Vector K17: the quotient is too large, and `SCALE` stays 1.0. -/
theorem test_calibrate_overflow : let t := after (exec (.calibrate 1 1) (busyWith { seg 1 .frameEnd with acc := 1 } 0x103 1))
    t.scale = 0x3FF0000000000000 ∧ t.ports = [.done .overflow 0] := by decide +kernel

/-- Vector K28: 100 / 3, rounded. -/
theorem test_getWeight_rounds : (after (exec .getWeight { busyWith { seg 1 .frameEnd with acc := 100 } 4 with
    scale := 0x4008000000000000 })).ports = [.done .ok 0x4040AAAAAAAAAAAB] := by decide +kernel

/-- Vector K33: −0.0 is zero, reported before the frame. -/
theorem test_getWeight_zero_scale : (after (exec .getWeight { busyWith (seg 1 .start) 4 with
    scale := 0x8000000000000000 })).ports = [.done .divisionByZero 0] := by decide

/-- Vector G1. -/
theorem test_getGain : (after (exec .getGain { busyWith (seg 1 .start) 5 with gain := 64 })).ports = [.done .ok 64] := by decide

/-- Vector G3, the first segment. -/
theorem test_setGain_stores : let t := after (exec (.setGain 32) (busyWith (seg 0 .start) 0x00200006))
    t.gain = 32 ∧ t.ports = [.pending 0x00200006 0 1] := by decide

/-- Vector S3: an invalid gain leaves the gain unchanged. -/
theorem test_setGain_100 : let t := after (exec (.setGain 100) { busyWith (seg 0 .start) 0x00640006 with gain := 64 })
    t.gain = 64 ∧ t.ports = [.done .invalidArgument 0] := by decide

/-- Program P2, step 3, both variants: 1 with no wake; with `PD_GETTER_WAKES` the clock goes low first. -/
theorem test_getPd : (after (exec .getPd { busyWith (seg 0 .start) 7 with pd := true, sck := true })).ports = [.done .ok 1] ∧
    (after (exec .getPd { busyWith (seg 0 .start) 7 with
      pd := true, sck := true, params := ⟨1, 2, 1, 3, 60, 0, true⟩ })).sck = false := by decide

/-- Vector B17: at the end of the hold `PD` is 1 with the line high. -/
theorem test_setPd_down : let t := after (exec (.setPd 1) { busyWith (seg 0 .holdEnd) 0x01000008 with sck := true })
    t.pd = true ∧ t.sck = true ∧ t.ports = [.done .ok 0] := by decide

/-- Vector B20: nothing to do. -/
theorem test_setPd_no_op : (after (exec (.setPd 0) (busyWith (seg 0 .start) 8))).ports = [.done .ok 0] := by decide

/-- Vector L11: the line held high is released, and `PD` keeps its value. -/
theorem test_cleanup : (after (exec .cleanup { busyWith (seg 0 .start) 9 with pd := true, sck := true })).registers =
    ⟨false, 128, true, 0, 0x3FF0000000000000, false, false⟩ := by decide

/-- Vector E22: the word is tested before `INITD`. -/
theorem test_illegal_before_initd : (after (step { queued 0x0000000B with initd := false })).ports =
    [.done .illegalCommand 0] := by decide

/-- Vector B7, one sample: not ready, a poll interval, no clock edge. -/
theorem test_wait_polls : let t := after (exec .getWeight { busyWith (seg 1 .wait) 4 with dout := [true, false] })
    t.timer = 3 ∧ t.sck = false ∧ t.dout = [false] := by decide

/-- Vectors S1a to S1c and B2. -/
theorem test_s24 : s24 0x000001 = 1 ∧ s24 0xFFFFFF = -1 ∧ s24 0x800000 = -8388608 ∧ s24 0x7FFFFF = 8388607 := by decide

/-- Vector B14: the samples 1, 0, 1, 0, ... are the pattern 0xAAAAAA. -/
theorem test_accumulate : (frameBits 0xAAAAAA).take 3 = [true, false, true] ∧
    (frameBits 0xAAAAAA).foldl accumulate 0 = 0xAAAAAA := by decide

/-- The first micro-step of an auto-wake after the hazard of R266 (`PD` 1, line low): by R113 it begins the wake (log 21). -/
theorem test_autoWake_after_hazard : (after (exec .getWeight { busyWith (seg 0 .start) 4 with pd := true })).seq =
    .busy (seg 0 .wait) := by decide

/-- The even-count median of vector K4. -/
theorem test_median_even : median [3, 8] = 8 := by decide

/-- The host's word is accepted and runs in the very next step: INIT's first micro-step after reset. -/
theorem test_withFetchWord : (after (step (State.reset.withFetchWord 32 0x00400001))).seq =
    .busy (seg 0 .initDrive) := by decide

/-! ## Witnesses -/

theorem witness_DecodeOfEncodeIsTheCommand : [Instr.init 255, .tare 255, .calibrate 255 0xFFFFFFFFFFFFFFFF, .getWeight, .getGain,
    .setGain 255, .getPd, .setPd 1, .cleanup].all Instr.wellFormed = true := by decide

theorem witness_EncodeOfDecodeIsTheWord : decode 0x0000FF03 0x3FF0000000000000 = .ok (.calibrate 255 0x3FF0000000000000) ∧
    decode 0x01000008 5 = .ok (.setPd 1) := by decide

theorem witness_DecodeIsTotalAndUnambiguous : (∀ r ∈ opcodeRows, r.pattern &&& r.mask = r.pattern) ∧
    (∀ r ∈ opcodeRows, (0x0000000A : CmdWord) &&& r.mask ≠ r.pattern) := by decide

/-- A word of each kind R79 names, at both ends of the reserved opcodes, and one with no illegal bit. -/
theorem witness_IllegalWordsAreThese : fieldOp 0x00000010 = 0 ∧ 0xA ≤ (fieldOp 0x0000000A).toNat ∧
    0xA ≤ (fieldOp 0x0000000F).toNat ∧ (0x80000005 : CmdWord) &&& ~~~usedBits (fieldOp 0x80000005) ≠ 0 ∧
    ¬ (fieldOp 0xFF02 = 0 ∨ 0xA ≤ (fieldOp 0xFF02).toNat ∨ (0xFF02 : CmdWord) &&& ~~~usedBits (fieldOp 0xFF02) ≠ 0) := by
  decide

theorem witness_OperandWordIsIgnored : fieldOp 0x00000005 ≠ 0x3 ∧ fieldOp 0x0000FF02 ≠ 0x3 := by decide

theorem witness_OperandFormsMeanTheirValues : (255 ≤ 255 ∧ (255 : Nat) ≠ 0 ∧ (1 : Nat) ≠ 0) ∧ gainAccepted (initGain 0) = true ∧
    gainAccepted (initGain 255) = false ∧ gainAccepted 0 = false := by decide

theorem witness_AccumulatorHoldsTheSamples : (List.replicate 24 true).length ≤ 24 ∧ (List.replicate 24 true).length = 24 ∧
    ([] : List Level).length ≤ 24 := by decide

theorem witness_MedianIsTheSortedMiddle : ([5] : List Int) ≠ [] ∧ ([3, 8] : List Int) ≠ [] := by decide

theorem witness_IntegerResultsNeverWrap : ([0x800000] : List FramePattern) ≠ [] ∧ ([7] : List Int) ≠ [] ∧
    (∀ x ∈ ([7] : List Int), (7 : Int) ≤ x ∧ x ≤ 7) := by decide

theorem witness_IntegersConvertExactly : (9007199254740992 : Int).natAbs ≤ 2 ^ 53 ∧ (-9007199254740992 : Int).natAbs ≤ 2 ^ 53 := by
  decide

/-- The ends of the range: a finite and an infinite quotient. -/
theorem witness_DivisionRoundsToNearestEven : isFinite 0x3FF0000000000000 = true ∧ isFinite 0x7FE1CCF385EBC8A0 = true ∧
    isZero 0x7FE1CCF385EBC8A0 = false ∧ isFinite (fdiv 0x3FF0000000000000 0x7FE1CCF385EBC8A0) = true ∧
    isFinite 1 = true ∧ isZero 1 = false ∧ isFinite (fdiv 0x3FF0000000000000 1) = false := by decide +kernel

theorem witness_EveryCommandSharesTheBitEngine : ∃ (s : State) (b : Busy) (t : State), s.seq = .busy b ∧ b.pos = .bitHigh 23 ∧ lineStep s b = some t :=
  ⟨busyWith (seg 1 (.bitHigh 23)) 4, seg 1 (.bitHigh 23), _, rfl, rfl, rfl⟩

theorem witness_WaitReadySamplesThenDelays :
    ∃ (s s' : State) (b : Busy), s.seq = .busy b ∧ s'.seq = .busy b ∧ b.pos = .wait ∧ s.dout = false :: [] ∧ s'.dout = true :: [] :=
  ⟨{ busyWith (seg 1 .wait) 4 with dout := [false] }, { busyWith (seg 1 .wait) 4 with dout := [true] }, seg 1 .wait, by decide⟩

/-- Each position of the statement, at the first and last bit and the first and last pulse, with each gain; a sample is laid out where one is
read, and none need be elsewhere. -/
theorem witness_DataBitAndPulseMicroSteps : ∀ g ∈ ([128, 64, 32] : List (BitVec 8)),
    (∀ p ∈ ([.bitHigh 0, .bitHigh 23, .bitLow 0, .bitLow 23, .pulseHigh 1, .pulseHigh 3, .pulseLow 1, .pulseLow (0 + 2),
      .pulseLow 3] : List Pos), ∃ (s : State) (b : Busy), s.seq = .busy b ∧ s.dout = [] ∧ b.pos = p ∧ s.gain = g) ∧
    (∀ j : Fin 24, ∃ (s : State) (b : Busy), s.seq = .busy b ∧ s.dout = true :: [] ∧ b.pos = .bitSample j ∧ s.gain = g) := by
  intro g _
  exact ⟨fun p _ => ⟨{ busyWith (seg 1 p) 4 with gain := g }, seg 1 p, rfl, rfl, rfl, rfl⟩,
    fun j => ⟨{ busyWith (seg 1 (.bitSample j)) 4 with gain := g, dout := [true] }, seg 1 (.bitSample j), rfl, rfl, rfl, rfl⟩⟩

theorem witness_DelayLastsItsTime : ∀ n ∈ [1, 60], ∃ (s : State) (b : Busy), s.seq = .busy b ∧ b.delaying = true ∧ s.inputs = [] ∧
    1 ≤ s.timer ∧ s.timer = n := by
  intro n hn
  refine ⟨{ busyWith { seg 0 .holdEnd with delaying := true } 0x01000008 with timer := n },
    { seg 0 .holdEnd with delaying := true }, rfl, rfl, rfl, ?_, rfl⟩
  simp at hn
  show 1 ≤ n
  omega

theorem witness_HangKeepsTheSequencerBusy : ∃ (s : State) (b : Busy), s.seq = .busy b ∧ b.pos = .wait ∧
    s.ports[b.port]? = some (.pending 4 0 1) ∧ decode 4 0 = .ok .getWeight ∧ (∀ e ∈ s.inputs, e.rst = false) ∧
    s.dout = List.replicate 5 true ∧ 5 ≤ 5 :=
  ⟨{ busyWith (seg 1 .wait) 4 with dout := List.replicate 5 true, inputs := [⟨false, true, []⟩] }, seg 1 .wait, by decide⟩

/-- With each gain, with no poll and some polls, and with the line low and (R266) high. -/
theorem witness_ReadFrameReadsThePattern : ∀ g ∈ ([128, 64, 32] : List (BitVec 8)), ∀ polls ∈ [0, 2], ∀ level : Level,
    ∃ (s : State) (b : Busy), s.seq = .busy b ∧ b.pos = .wait ∧ b.delaying = false ∧
    s.ports[b.port]? = some (.pending 4 0 1) ∧ decode 4 0 = .ok .getWeight ∧ s.inputs = [] ∧ s.gain = g ∧
    (s.gain = 128 ∨ s.gain = 64 ∨ s.gain = 32) ∧ s.dout = frameSamples polls 0x800001 ++ [true] ∧ s.sck = level := by
  intro g hg polls _ level
  refine ⟨{ busyWith (seg 1 .wait) 4 with gain := g, sck := level, dout := frameSamples polls 0x800001 ++ [true] },
    seg 1 .wait, rfl, rfl, rfl, rfl, by decide, rfl, rfl, ?_, rfl, rfl⟩
  simpa using hg

theorem witness_PowerDownHoldIsAtLeastSixtyMicroseconds : ∃ (s : State) (b : Busy), s.seq = .busy b ∧ b.pos = .holdHigh ∧
    s.inputs = [] ∧ s.params.ok = true ∧ 60 * s.params.perMicrosecond ≤ s.params.tPdHold :=
  ⟨busyWith (seg 0 .holdHigh) 0x01000008, seg 0 .holdHigh, by decide⟩

/-- One state for each position, whatever the command word and the segment. -/
theorem busy_at (k : Nat) (p : Pos) (cmd : CmdWord) : (busyWith (seg k p) cmd).seq = .busy (seg k p) ∧ (seg k p).pos = p ∧
    (seg k p).seg = k ∧ (busyWith (seg k p) cmd).initd = true ∧
    (busyWith (seg k p) cmd).ports[(seg k p).port]? = some (.pending cmd 0 k) := ⟨rfl, rfl, rfl, rfl, rfl⟩

theorem witness_InitEffect : ∃ (s s' s'' : State) (b b' b'' : Busy), s.seq = .busy b ∧ b.pos = .start ∧
    (127 ≤ 255 ∧ 127 ≠ 0 ∧ 127 ≠ 128 ∧ 127 ≠ 64 ∧ 127 ≠ 32) ∧ (0 ≤ 255 ∧ 128 ≤ 255 ∧ (0 = 0 ∨ 0 = 128 ∨ 0 = 64 ∨ 0 = 32)) ∧
    s'.seq = .busy b' ∧ b'.pos = .initDrive ∧ s''.seq = .busy b'' ∧ b''.pos = .frameEnd :=
  ⟨busyWith (seg 0 .start) 1, busyWith (seg 0 .initDrive) 1, busyWith (seg 0 .frameEnd) 1, seg 0 .start, seg 0 .initDrive,
    seg 0 .frameEnd, by decide⟩

theorem witness_CleanupEffect : ∃ (s s' : State) (b : Busy), s.seq = .busy b ∧ b.pos = .start ∧ s.initd = true ∧
    s'.seq = .busy b ∧ s'.initd = false :=
  ⟨busyWith (seg 0 .start) 9, { busyWith (seg 0 .start) 9 with initd := false }, seg 0 .start, by decide⟩

/-- A refused gain (0), the same gain (128), a new one (32), and the last segment. -/
theorem witness_SetGainEffect : ∃ (s s' s'' : State) (b b' b'' : Busy), s.seq = .busy b ∧ s.initd = true ∧ b.seg = 0 ∧ b.pos = .start ∧
    (0 ≤ 255 ∧ 0 ≠ 128 ∧ 0 ≠ 64 ∧ 0 ≠ 32) ∧ s.gain = BitVec.ofNat 8 128 ∧ s.gain ≠ BitVec.ofNat 8 32 ∧
    s.ports[b.port]? = some (.pending 0x00200006 0 0) ∧ s'.seq = .busy b' ∧ s'.initd = true ∧ b'.seg = 2 ∧ b'.pos = .start ∧
    s''.seq = .busy b'' ∧ s''.initd = true ∧ b''.seg = 2 ∧ b''.pos = .frameEnd :=
  ⟨busyWith (seg 0 .start) 0x00200006, busyWith (seg 2 .start) 0x00200006, busyWith (seg 2 .frameEnd) 0x00200006, seg 0 .start,
    seg 2 .start, seg 2 .frameEnd, by decide⟩

theorem witness_GettersAnswerTheirRegister : ∃ (s s' : State) (b b' : Busy), s.seq = .busy b ∧ b.pos = .start ∧ s.initd = true ∧
    b.seg = 1 ∧ s'.seq = .busy b' ∧ b'.pos = .start ∧ s'.initd = true ∧ b'.seg = 0 ∧ s'.params.pdGetterWakes = false :=
  ⟨busyWith (seg 1 .start) 5, busyWith (seg 0 .start) 7, seg 1 .start, seg 0 .start, by decide⟩

theorem witness_SetPdEffect : ∃ (s s' : State) (b : Busy), s.seq = .busy b ∧ s.initd = true ∧ s'.seq = .busy b ∧ s'.initd = true ∧
    b.pos = .start ∧ (0 = 1 ↔ s.pd = true) ∧ s.pd = false ∧ s'.pd = true ∧ 1 ≤ 1 ∧
    (∀ p ∈ ([.holdHigh, .holdEnd, .frameEnd] : List Pos), (busyWith (seg 0 p) 8).seq = .busy (seg 0 p) ∧ (seg 0 p).pos = p ∧
      (busyWith (seg 0 p) 8).initd = true) :=
  ⟨busyWith (seg 0 .start) 8, { busyWith (seg 0 .start) 8 with pd := true }, seg 0 .start, by decide⟩

/-- The first segment of the five commands, and SET_GAIN's second; both values of `PD`; the end of the wake's frame. -/
theorem witness_AutoWakeSegmentEffect : ∃ (s s' s'' : State) (b b' : Busy), s.seq = .busy b ∧ s.initd = true ∧
    s.ports[b.port]? = some (.pending 4 0 0) ∧ b.seg = 0 ∧ b.pos = .start ∧ s.pd = false ∧
    s'.seq = .busy b ∧ s'.pd = true ∧ s'.initd = true ∧ s'.params.pdGetterWakes = true ∧
    s'.ports[b.port]? = some (.pending 7 0 0) ∧
    s''.seq = .busy b' ∧ b'.seg = 1 ∧ b'.pos = .frameEnd ∧ s''.initd = true ∧
    s''.ports[b'.port]? = some (.pending 0x00200006 0 1) ∧
    isFinite 1 = true ∧ isZero 1 = false :=
  ⟨busyWith (seg 0 .start) 4, { busyWith (seg 0 .start) 7 with pd := true, params := ⟨1, 2, 1, 3, 60, 0, true⟩ },
    busyWith (seg 1 .frameEnd) 0x00200006, seg 0 .start, seg 1 .frameEnd, by decide⟩

/-- The first micro-step; a frame that is not the last of 255; the last of 10 (`N` = 0) and of 1. -/
theorem witness_TareEffect : ∃ (s s' s'' : State) (b b' b'' : Busy), s.seq = .busy b ∧ s.initd = true ∧ b.seg = 1 ∧ b.pos = .start ∧
    s'.seq = .busy b' ∧ s'.initd = true ∧ b'.seg = 1 ∧ b'.pos = .frameEnd ∧ 255 ≤ 255 ∧
    b'.samples.length + 1 < (if 255 = 0 then 10 else 255) ∧ b'.samples.length + 1 = (if 1 = 0 then 10 else 1) ∧
    s''.seq = .busy b'' ∧ s''.initd = true ∧ b''.seg = 1 ∧ b''.pos = .frameEnd ∧
    b''.samples.length + 1 = (if 0 = 0 then 10 else 0) :=
  ⟨busyWith (seg 1 .start) 0x102, busyWith (seg 1 .frameEnd) 0x102,
    busyWith { seg 1 .frameEnd with samples := List.replicate 9 7 } 0x002,
    seg 1 .start, seg 1 .frameEnd, { seg 1 .frameEnd with samples := List.replicate 9 7 }, by decide⟩

/-- As for TARE; a finite and an infinite quotient. -/
theorem witness_CalibrateEffect : ∃ (s s' s'' : State) (b b' b'' : Busy), s.seq = .busy b ∧ s.initd = true ∧ b.seg = 1 ∧
    b.pos = .start ∧ s'.seq = .busy b' ∧ s'.initd = true ∧ b'.seg = 1 ∧ b'.pos = .frameEnd ∧ 255 ≤ 255 ∧
    b'.samples.length + 1 < (if 255 = 0 then 10 else 255) ∧ b'.samples.length + 1 = (if 1 = 0 then 10 else 1) ∧
    isFinite (fdiv (f64OfInt (median (b'.samples ++ [s24 b'.acc - s'.offset.toInt]))) 0x3FF0000000000000) = true ∧
    isFinite (fdiv (f64OfInt (median (b'.samples ++ [s24 b'.acc - s'.offset.toInt]))) 1) = false ∧
    s''.seq = .busy b'' ∧ s''.initd = true ∧ b''.seg = 1 ∧ b''.pos = .frameEnd ∧
    b''.samples.length + 1 = (if 0 = 0 then 10 else 0) :=
  ⟨busyWith (seg 1 .start) 0x103, busyWith { seg 1 .frameEnd with acc := 1 } 0x103,
    busyWith { seg 1 .frameEnd with samples := List.replicate 9 7 } 0x003,
    seg 1 .start, { seg 1 .frameEnd with acc := 1 }, { seg 1 .frameEnd with samples := List.replicate 9 7 }, by decide +kernel⟩

/-- A zero and a non-zero scale; a finite weight and, with vector K35's scale, an infinite one. -/
theorem witness_GetWeightEffect : ∃ (s s' s'' : State) (b b' : Busy), s.seq = .busy b ∧ s.initd = true ∧ b.seg = 1 ∧ b.pos = .start ∧
    isZero s.scale = true ∧ s'.seq = .busy b ∧ s'.initd = true ∧ isZero s'.scale = false ∧
    s''.seq = .busy b' ∧ s''.initd = true ∧ b'.seg = 1 ∧ b'.pos = .frameEnd ∧
    isFinite (fdiv (f64OfInt (s24 b'.acc - s''.offset.toInt)) s'.scale) = true ∧
    isFinite (fdiv (f64OfInt (s24 b'.acc - s''.offset.toInt)) s''.scale) = false :=
  ⟨{ busyWith (seg 1 .start) 4 with scale := 0x8000000000000000 }, busyWith (seg 1 .start) 4,
    { busyWith { seg 1 .frameEnd with acc := 0x7FFFFF } 4 with scale := 0x000730D67819E8D2 }, seg 1 .start,
    { seg 1 .frameEnd with acc := 0x7FFFFF }, by decide +kernel⟩

theorem witness_UninitialisedSegmentFails : ∃ (s : State) (b : Busy), (∀ g, Instr.cleanup ≠ .init g) ∧ s.seq = .busy b ∧
    b.pos = .start ∧ s.initd = false :=
  ⟨{ busyWith (seg 0 .start) 9 with initd := false }, seg 0 .start, by simp, rfl, rfl, rfl⟩

theorem witness_CalibrateChecksItsWeightFirst : ∃ (s : State) (b : Busy), s.seq = .busy b ∧ b.seg = 0 ∧ b.pos = .start ∧
    s.initd = true ∧ isFinite 0x7FF8000000000000 = false ∧ isFinite 0xFFF0000000000000 = false ∧
    isZero 0x8000000000000000 = true :=
  ⟨busyWith (seg 0 .start) 0x103, seg 0 .start, by decide⟩

theorem witness_IllegalWordEndsAtTheGate : ∃ (s s1 s' : State) (b : Busy) (e : DecodeError), s.clock = .free s1 ∧ s1.seq = .idle ∧
    s1.grant = some (s', b) ∧ s'.ports[b.port]? = some (.pending 0x0A 0 0) ∧ decode 0x0A 0 = .error e ∧ s.initd = false :=
  ⟨{ queued 0x0A with initd := false, grants := [0] }, _, _, _, _, rfl, rfl, rfl, rfl, rfl, rfl⟩

theorem witness_ErrorWritesNothing : ∃ (s t : State) (b : Busy), s.seq = .busy b ∧
    s.ports[b.port]? = some (.pending 0x00640006 0 0) ∧ exec (.setGain 100) s = .next t ∧
    t.ports[b.port]? = some (.done .invalidArgument 0) ∧ Status.invalidArgument ≠ .ok :=
  ⟨busyWith (seg 0 .start) 0x00640006, _, seg 0 .start, rfl, rfl, rfl, rfl, by decide⟩

theorem witness_StatusCodesAreTheTable :
    response { ready with ports := [.empty, .done .overflow 0] } 1 = some (5, 0) := by decide

/-- CLEANUP is outside the writers of `GAIN`, `OFFSET`, `SCALE` and `PD`, GET_WEIGHT's sampling segment outside those of `INITD`, `SCK_OE` and
`PD`; GET_PD's segment is an auto-wake only where `PD_GETTER_WAKES`. -/
theorem witness_RegistersHaveOnlyTheirWriters : ∃ (s t u v : State) (b b' : Busy),
    s.seq = .busy b ∧ exec .cleanup s = .next t ∧
    (∀ g, Instr.cleanup ≠ .init g) ∧ (∀ g, Instr.cleanup ≠ .setGain g) ∧ (∀ n, Instr.cleanup ≠ .tare n) ∧
    (∀ n w, Instr.cleanup ≠ .calibrate n w) ∧ (∀ v, Instr.cleanup ≠ .setPd v) ∧
    (segmentKinds s.params.pdGetterWakes .cleanup)[b.seg]? ≠ some .wake ∧
    u.seq = .busy b' ∧ exec .getWeight u = .next v ∧ (∀ g, Instr.getWeight ≠ .init g) ∧ Instr.getWeight ≠ .cleanup ∧
    (∀ v, Instr.getWeight ≠ .setPd v) ∧ (segmentKinds u.params.pdGetterWakes .getWeight)[b'.seg]? ≠ some .wake ∧
    (segmentKinds false .getPd)[0]? ≠ some .wake ∧ (segmentKinds true .getPd)[0]? = some .wake :=
  ⟨busyWith (seg 0 .start) 9, _, busyWith (seg 1 (.pulseHigh 1)) 4, _, seg 0 .start, seg 1 (.pulseHigh 1), rfl, rfl, by simp,
    by simp, by simp, by simp, by simp, by decide, rfl, rfl, by simp, by simp, by simp, by decide, by decide, by decide⟩

/-- Where the clock line changes: up at a data pulse; down at the start of an auto-wake with `PD = 1`; not at one with `PD = 0`. -/
theorem test_sck_changes : (after (exec .getWeight (busyWith (seg 1 (.bitHigh 0)) 4))).sck = true ∧
    (after (exec .getWeight { busyWith (seg 0 .start) 4 with pd := true, sck := true })).sck = false ∧
    (after (exec .getWeight { busyWith (seg 0 .start) 4 with sck := true })).sck = true := by decide

theorem witness_MicroStepStaysWithItsPort : ∃ (s t : State) (b : Busy), s.seq = .busy b ∧
    s.ports[b.port]? = some (.pending 4 0 b.seg) ∧ exec .getWeight s = .next t :=
  ⟨busyWith (seg 0 .start) 4, _, seg 0 .start, rfl, rfl, rfl⟩

/-- Each clause: a segment in progress, a grant, a delay; with no edge laid out and with one at which port 1 gets a command. -/
theorem witness_StepRunsTheDecodedCommand : ∃ (s s1 u v v' w : State) (b bv bw : Busy) (e : Edge),
    s.inputs = e :: [] ∧ e.rst = false ∧ e.stall = false ∧ s1 = { s with inputs := [], ports := clockPorts e.pins s.ports } ∧
    s1.ports[1]? = some (.pending 5 0 0) ∧ decode 4 0 = .ok .getWeight ∧
    s1.seq = .busy b ∧ b.delaying = false ∧ s1.ports[b.port]? = some (.pending 4 0 1) ∧
    u.inputs = [] ∧ v.inputs = [] ∧ v.seq = .idle ∧ v.grant = some (v', bv) ∧ v'.ports[bv.port]? = some (.pending 4 0 0) ∧
    w.inputs = [] ∧ w.seq = .busy bw ∧ bw.delaying = true :=
  ⟨{ busyWith (seg 1 .start) 4 with
      ports := [.pending 4 0 1, .empty], inputs := [⟨false, false, [⟨false, 0, 0, false⟩, ⟨true, 5, 0, false⟩]⟩] },
    { busyWith (seg 1 .start) 4 with ports := [.pending 4 0 1, .pending 5 0 0] },
    ready, { queued 4 with grants := [0] }, _, busyWith { seg 1 (.bitLow 3) with delaying := true } 4, seg 1 .start, _, _, _,
    rfl, rfl, rfl, rfl, rfl, by decide, rfl, rfl, rfl, rfl, rfl, rfl, rfl, rfl, rfl, rfl, rfl⟩

/-- A grant with two ports pending, and no port pending. -/
theorem witness_ArbiterMayChooseEveryPendingPort : ∃ (s s' u : State) (b : Busy), s.grant = some (s', b) ∧ b.port = 1 ∧
    s.ports[1]? = some (.pending 5 0 0) ∧ s.pendingPorts ≠ [] ∧ 1 ∈ s.pendingPorts ∧ (∀ (p : Nat) (cmd : CmdWord) (arg : ArgWord) (k : Nat),
      u.ports[p]? ≠ some (.pending cmd arg k)) ∧ u.seq = .idle ∧ u.inputs = [] := by
  refine ⟨{ ready with ports := [.pending 4 0 0, .pending 5 0 0], grants := [1] }, _, ready, _, rfl, rfl, rfl, by decide, by decide, ?_, rfl, rfl⟩
  intro p cmd arg k
  rcases p with _ | p <;> simp [ready, State.reset]

/-- An edge at which five ports see: an offer, no offer, a response taken, a response left, an offer to a pending port. -/
def handshakeEdge : Edge := ⟨false, true,
  [⟨true, 4, 0, false⟩, ⟨false, 4, 0, false⟩, ⟨false, 0, 0, true⟩, ⟨true, 0, 0, false⟩, ⟨true, 9, 0, true⟩]⟩

/-- Those five ports, and one for which the edge lists no pins. -/
def handshakePorts : List Port := [.empty, .empty, .done .ok 7, .done .ok 7, .pending 4 0 1, .done .ok 7]

/-- The five cases of a port with pins, and a port beyond the list. -/
theorem witness_PortsFollowTheHandshake :
    let s : State := { ready with ports := handshakePorts, inputs := [handshakeEdge] }
    s.inputs = handshakeEdge :: [] ∧ handshakeEdge.rst = false ∧ handshakeEdge.stall = true ∧
    s.ports.map (fun p => p == .empty) = [true, true, false, false, false, false] ∧
    handshakeEdge.pins.map PortPins.cmdValid = [true, false, false, true, true] ∧
    handshakeEdge.pins.map PortPins.rspReady = [false, false, true, false, true] ∧
    s.ports[2]? = some (.done .ok 7) ∧ s.ports[3]? = some (.done .ok 7) ∧ s.ports[4]? = some (.pending 4 0 1) ∧
    handshakeEdge.pins[5]? = none := by decide

theorem witness_PortSignalsShowThePortState : ({ ready with ports := [.empty, .done .ok 7] } : State).ports[1]? =
    some (.done .ok 7) := by decide

theorem witness_ResetDropsEverything : ∃ (s : State) (e : Edge), s.inputs = e :: [] ∧ e.rst = true :=
  ⟨{ busyWith (seg 1 .wait) 4 with inputs := [⟨true, false, []⟩] }, _, rfl, rfl⟩

theorem witness_IdleStepIgnoresTheTimer : ∃ (s t : State), s.seq = .idle ∧ step s = .next t :=
  ⟨{ queued 5 with grants := [0] }, _, rfl, rfl⟩

/-- An idle engine with a command waiting meets the invariant. -/
theorem queued_inv : EngineInv { queued 4 with grants := [0] } where
  somePort := by simp [queued]
  params := by decide
  gain := .inl rfl
  scale := by decide
  driven := rfl
  ports := by
    intro port h
    simp only [queued, List.mem_singleton] at h
    subst h
    show (1 : Nat) ≤ 2
    decide
  busy := by intro b h; cases h

/-- A frame at its last data bit, with the accumulator full to bit 22, meets the invariant. -/
theorem sampling_inv : EngineInv (busyWith { seg 1 (.bitSample 23) with acc := 0x7FFFFF } 4) where
  somePort := by simp [busyWith]
  params := by decide
  gain := .inl rfl
  scale := by decide
  driven := rfl
  ports := by
    intro port h
    simp only [busyWith, List.mem_singleton] at h
    subst h
    show (2 : Nat) ≤ 2
    decide
  busy := by
    intro b h
    cases h
    refine ⟨4, 0, rfl, ?_, ?_⟩
    · exact ⟨rfl, by decide, rfl⟩
    · show (∃ kind, _ ∧ _) ∧ _
      exact ⟨⟨.sample 1, rfl, by decide⟩, fun x hx => (by cases hx), fun g h => (by cases h)⟩

theorem witness_StepKeepsTheInvariant : ∃ s t u v : State, EngineInv s ∧ step s = .next t ∧ EngineInv u ∧
    step { u with dout := [true] } = .next v :=
  ⟨_, _, _, _, queued_inv, rfl, sampling_inv, rfl⟩

theorem witness_EngineNeverStops : ∃ s u : State, EngineInv s ∧ EngineInv u := ⟨_, _, queued_inv, sampling_inv⟩

theorem witness_OnePortKeepsTheLineWithPd : ∃ s t : State, EngineInv s ∧ OnePortLine s ∧ step s = .next t := by
  refine ⟨_, _, queued_inv, ?_, rfl⟩
  refine ⟨rfl, fun _ _ => rfl, ?_, ?_⟩
  · intro cmd arg k i kind _ _ _ _ _ _
    rfl
  · intro b cmd arg i kind h
    cases h

/-- A port with a command that has not begun, alone. -/
theorem alone_queued (cmd : CmdWord) (arg : ArgWord) (i : Instr) (h : decode cmd arg = .ok i) : Alone (queued cmd arg) 0 i :=
  ⟨rfl, rfl, rfl, cmd, arg, rfl, h⟩

theorem witness_InitRunsToItsResponse : ∀ g ∈ [0, 128, 64, 32], ∃ s : State, Alone s 0 (.init g) ∧ g ≤ 255 ∧
    (g = 0 ∨ g = 128 ∨ g = 64 ∨ g = 32) ∧ s.dout = frameSamples 1 0x000123 ++ [] := by
  intro g hg
  have hd : decode (encodeWord (.init g)) 0 = .ok (.init g) := by
    simp at hg
    rcases hg with rfl | rfl | rfl | rfl <;> decide
  exact ⟨{ queued (encodeWord (.init g)) with dout := frameSamples 1 0x000123 ++ [] },
    ⟨rfl, rfl, rfl, _, 0, rfl, hd⟩, by simp at hg; omega, by simpa using hg, rfl⟩

/-- INIT with the nearest gain that is refused. -/
theorem witness_InitRunsToItsResponse_refused : ∃ s : State, Alone s 0 (.init 127) ∧ 127 ≤ 255 ∧ 127 ≠ 0 ∧ 127 ≠ 128 ∧ 127 ≠ 64 ∧
    127 ≠ 32 ∧ s.initd = false :=
  ⟨{ queued 0x007F0001 with initd := false }, ⟨rfl, rfl, rfl, _, 0, rfl, by decide⟩, by decide, by decide, by decide, by decide,
    by decide, rfl⟩

/-- TARE awake with one sample; and powered down, with the default of ten. -/
theorem witness_TareRunsToItsResponse : ∃ s s' : State, Alone s 0 (.tare 1) ∧ 1 ≤ 255 ∧ s.initd = true ∧
    (s.pd = false → s.sck = false) ∧ (s.gain = 128 ∨ s.gain = 64 ∨ s.gain = 32) ∧
    [(0, (7 : FramePattern))].length = (if 1 = 0 then 10 else 1) ∧
    s.dout = (if s.pd then frameSamples 0 0 else []) ++ (framesSamples [(0, 7)] ++ []) ∧ s.pd = false ∧
    Alone s' 0 (.tare 0) ∧ s'.pd = true ∧ (s'.pd = false → s'.sck = false) ∧
    (List.replicate 10 (2, (0xFFFFFF : FramePattern))).length = (if 0 = 0 then 10 else 0) ∧
    s'.dout = (if s'.pd then frameSamples 1 0x000123 else []) ++ (framesSamples (List.replicate 10 (2, 0xFFFFFF)) ++ []) :=
  ⟨{ queued 0x102 with dout := framesSamples [(0, 7)] ++ [] },
    { queued 0x002 with
      pd := true, sck := true, dout := frameSamples 1 0x000123 ++ (framesSamples (List.replicate 10 (2, 0xFFFFFF)) ++ []) },
    ⟨rfl, rfl, rfl, _, 0, rfl, by decide⟩, by decide, rfl, fun _ => rfl, .inl rfl, rfl, rfl, rfl,
    ⟨rfl, rfl, rfl, _, 0, rfl, by decide⟩, rfl, by decide, rfl, rfl⟩

/-- A finite quotient awake, and one that is too large powered down. -/
theorem witness_CalibrateRunsToItsResponse : ∃ (s s' : State), Alone s 0 (.calibrate 1 0x4059000000000000) ∧ 1 ≤ 255 ∧
    isFinite 0x4059000000000000 = true ∧ isZero 0x4059000000000000 = false ∧ s.initd = true ∧ (s.pd = false → s.sck = false) ∧
    (s.gain = 128 ∨ s.gain = 64 ∨ s.gain = 32) ∧ [(0, (1 : FramePattern))].length = (if 1 = 0 then 10 else 1) ∧
    s.dout = (if s.pd then frameSamples 0 0 else []) ++ (framesSamples [(0, 1)] ++ []) ∧ s.pd = false ∧
    isFinite (fdiv (f64OfInt (median ([(0, (1 : FramePattern))].map fun f => s24 f.2 - s.offset.toInt))) 0x4059000000000000) = true ∧
    Alone s' 0 (.calibrate 1 1) ∧ isFinite 1 = true ∧ isZero 1 = false ∧ s'.pd = true ∧ (s'.pd = false → s'.sck = false) ∧
    s'.dout = (if s'.pd then frameSamples 0 0 else []) ++ (framesSamples [(0, 1)] ++ []) ∧
    isFinite (fdiv (f64OfInt (median ([(0, (1 : FramePattern))].map fun f => s24 f.2 - s'.offset.toInt))) 1) = false :=
  ⟨{ queued 0x103 0x4059000000000000 with dout := framesSamples [(0, 1)] ++ [] },
    { queued 0x103 1 with pd := true, sck := true, dout := frameSamples 0 0 ++ (framesSamples [(0, 1)] ++ []) },
    ⟨rfl, rfl, rfl, _, _, rfl, by decide⟩, by decide, by decide, by decide, rfl, fun _ => rfl, .inl rfl, rfl, rfl, rfl,
    by decide +kernel, ⟨rfl, rfl, rfl, _, _, rfl, by decide⟩, by decide, by decide, rfl, by decide, rfl, by decide +kernel⟩

/-- A finite weight, a zero scale, and (vector K35) an infinite weight. -/
theorem witness_GetWeightRunsToItsResponse : ∃ (s s' s'' : State), Alone s 0 .getWeight ∧ s.initd = true ∧ s.pd = false ∧ s.sck = false ∧
    (s.gain = 128 ∨ s.gain = 64 ∨ s.gain = 32) ∧ s.dout = frameSamples 0 0x7FFFFF ++ [] ∧ isZero s.scale = false ∧
    isFinite (fdiv (f64OfInt (s24 0x7FFFFF - s.offset.toInt)) s.scale) = true ∧
    Alone s' 0 .getWeight ∧ isZero s'.scale = true ∧ s'.dout = frameSamples 0 0x7FFFFF ++ [] ∧
    Alone s'' 0 .getWeight ∧ isZero s''.scale = false ∧ s''.dout = frameSamples 0 0x7FFFFF ++ [] ∧
    isFinite (fdiv (f64OfInt (s24 0x7FFFFF - s''.offset.toInt)) s''.scale) = false :=
  ⟨{ queued 4 with dout := frameSamples 0 0x7FFFFF ++ [] },
    { queued 4 with scale := 0, dout := frameSamples 0 0x7FFFFF ++ [] },
    { queued 4 with scale := 0x000730D67819E8D2, dout := frameSamples 0 0x7FFFFF ++ [] },
    ⟨rfl, rfl, rfl, _, 0, rfl, by decide⟩, rfl, rfl, rfl, .inl rfl, rfl, by decide, by decide +kernel,
    ⟨rfl, rfl, rfl, _, 0, rfl, by decide⟩, by decide, rfl,
    ⟨rfl, rfl, rfl, _, 0, rfl, by decide⟩, by decide, rfl, by decide +kernel⟩

/-- Awake and powered down. -/
theorem witness_GetGainRunsToItsResponse : ∃ (s s' : State), Alone s 0 .getGain ∧ s.initd = true ∧ s.pd = false ∧
    (s.gain = 128 ∨ s.gain = 64 ∨ s.gain = 32) ∧ Alone s' 0 .getGain ∧ s'.initd = true ∧ s'.pd = true ∧
    s'.dout = frameSamples 1 0 ++ [] :=
  ⟨queued 5, { queued 5 with pd := true, sck := true, dout := frameSamples 1 0 ++ [] }, alone_queued _ _ _ (by decide), rfl, rfl,
    .inl rfl, ⟨rfl, rfl, rfl, _, 0, rfl, by decide⟩, rfl, rfl, rfl⟩

/-- A chip powered down that shows two frames, with `SCALE` as given. -/
def asleep (scale : F64) (f : FramePattern) : State :=
  { queued 4 with pd := true, sck := true, scale := scale, dout := frameSamples 1 0x000123 ++ (frameSamples 0 f ++ []) }

theorem asleep_meets (scale : F64) (f : FramePattern) : Alone (asleep scale f) 0 .getWeight ∧ (asleep scale f).initd = true ∧
    (asleep scale f).pd = true ∧ ((asleep scale f).gain = 128 ∨ (asleep scale f).gain = 64 ∨ (asleep scale f).gain = 32) ∧
    (asleep scale f).dout = frameSamples 1 0x000123 ++ (frameSamples 0 f ++ []) ∧ (asleep scale f).scale = scale :=
  ⟨⟨rfl, rfl, rfl, _, 0, rfl, by decide⟩, rfl, rfl, .inl rfl, rfl, rfl⟩

/-- Vector K38's frames, with a finite weight; vector K35's frame and scale, with an infinite one; vector K37's scale, which is zero. -/
theorem witness_GetWeightAfterPowerDownDiscardsOneFrame :
    (Alone (asleep 0x3FF0000000000000 42) 0 .getWeight ∧ isZero 0x3FF0000000000000 = false ∧
      isFinite (fdiv (f64OfInt (s24 42 - (asleep 0x3FF0000000000000 42).offset.toInt)) 0x3FF0000000000000) = true) ∧
    (Alone (asleep 0x000730D67819E8D2 0x7FFFFF) 0 .getWeight ∧ isZero 0x000730D67819E8D2 = false ∧
      isFinite (fdiv (f64OfInt (s24 0x7FFFFF - (asleep 0x000730D67819E8D2 0x7FFFFF).offset.toInt)) 0x000730D67819E8D2) = false) ∧
    (Alone (asleep 0 42) 0 .getWeight ∧ isZero 0 = true) :=
  ⟨⟨(asleep_meets _ _).1, by decide, by decide +kernel⟩, ⟨(asleep_meets _ _).1, by decide, by decide +kernel⟩,
    (asleep_meets _ _).1, by decide⟩

theorem witness_SetGainLatchesTheNewGain : ∃ (s : State), Alone s 0 (.setGain 32) ∧ (32 = 128 ∨ 32 = 64 ∨ 32 = 32) ∧
    s.gain ≠ BitVec.ofNat 8 32 ∧ s.initd = true ∧ s.pd = false ∧ s.sck = false ∧ s.dout = frameSamples 0 0 ++ [] :=
  ⟨{ queued 0x00200006 with dout := frameSamples 0 0 ++ [] }, ⟨rfl, rfl, rfl, _, 0, rfl, by decide⟩, by decide, by decide, rfl,
    rfl, rfl, rfl⟩

theorem witness_PowerDownRunsToItsResponse : ∃ (s : State), Alone s 0 (.setPd 1) ∧ s.initd = true ∧ s.pd = false ∧ s.sck = false :=
  ⟨queued 0x01000008, alone_queued _ _ _ (by decide), rfl, rfl, rfl⟩

theorem witness_WakeRunsToItsResponse : ∃ (s : State), Alone s 0 (.setPd 0) ∧ s.initd = true ∧ s.pd = true ∧
    (s.gain = 128 ∨ s.gain = 64 ∨ s.gain = 32) ∧ s.dout = frameSamples 3 0 ++ [] :=
  ⟨{ queued 8 with pd := true, sck := true, gain := 32, dout := frameSamples 3 0 ++ [] }, ⟨rfl, rfl, rfl, _, 0, rfl, by decide⟩,
    rfl, rfl, .inr (.inr rfl), rfl⟩

theorem witness_PowerDownHazardLeavesPdStale : ∃ (s : State) (b : Busy), s.seq = .busy b ∧ b.seg = 1 ∧ b.pos = .start ∧
    b.delaying = false ∧ s.ports[b.port]? = some (.pending 4 0 1) ∧ decode 4 0 = .ok .getWeight ∧ s.inputs = [] ∧
    s.initd = true ∧ s.pd = true ∧ s.sck = true ∧ isZero s.scale = false ∧
    (s.gain = 128 ∨ s.gain = 64 ∨ s.gain = 32) ∧ s.dout = frameSamples 2 0x000042 ++ [] :=
  ⟨{ busyWith (seg 1 .start) 4 with pd := true, sck := true, dout := frameSamples 2 0x000042 ++ [] }, seg 1 .start, rfl, rfl, rfl,
    rfl, rfl, by decide, rfl, rfl, rfl, rfl, by decide, .inl rfl, rfl⟩

end Sys2Proof.Tests
end

section
/-! The reset state (10_state.md R39). -/

namespace Sys2Proof.Machine

/-- The pattern of 1.0, which R39 gives `SCALE`: significand 2^52 and shift 1022, in units of 2^−1074. -/
theorem f64Units_one : f64Units 0x3FF0000000000000 = 2 ^ 1074 := by
  have hsig : f64Significand 0x3FF0000000000000 = 2 ^ 52 := by decide
  have hshift : f64Shift 0x3FF0000000000000 = 1022 := by decide
  rw [f64Units, hsig, hshift, ← pow_add]

theorem f64Value_one : f64Value 0x3FF0000000000000 = 1 := by
  have hsign : f64Sign 0x3FF0000000000000 = false := by decide
  have hscale : (2 ^ 1074 : ℚ) ≠ 0 := pow_ne_zero _ two_ne_zero
  simp only [f64Value, hsign, f64Units_one, Nat.cast_pow, Nat.cast_ofNat, div_self hscale]
  simp

/-- Settles O43: the fields are those of `State.reset`, and its `SCALE` stands for 1 (`f64Value_one`). -/
theorem resetValues : Obligations.ResetValues :=
  ⟨rfl, rfl, rfl, rfl, rfl, f64Value_one, rfl, rfl, rfl, fun _ hport => List.mem_singleton.mp hport⟩

end Sys2Proof.Machine
end

section
/-! The decoder against the table of R73 (30_encoding.md R78, R82). Every mask covers `OP`, so a row that accepts a word has
the word's opcode; the rows' opcodes differ, so at most one row accepts a word. -/

namespace Sys2Proof

theorem OpcodeRow.accepts_iff {r : OpcodeRow} {cmd : CmdWord} : r.accepts cmd = true ↔ cmd &&& r.mask = r.pattern :=
  beq_iff_eq

theorem fieldOp_and (a b : CmdWord) : fieldOp (a &&& b) = fieldOp a &&& fieldOp b :=
  BitVec.extractLsb'_and

theorem fieldOp_mask_and_pattern :
    ∀ r ∈ opcodeRows, fieldOp r.mask = BitVec.allOnes 4 ∧ fieldOp r.pattern = r.opcode := by decide

theorem eq_of_opcode_eq : ∀ r ∈ opcodeRows, ∀ r' ∈ opcodeRows, r.opcode = r'.opcode → r = r' := by decide

theorem fieldOp_of_accepts {r : OpcodeRow} (hr : r ∈ opcodeRows) {cmd : CmdWord} (h : r.accepts cmd = true) :
    fieldOp cmd = r.opcode := by
  obtain ⟨hmask, hpattern⟩ := fieldOp_mask_and_pattern r hr
  calc fieldOp cmd = fieldOp cmd &&& fieldOp r.mask := by rw [hmask, BitVec.and_allOnes]
    _ = fieldOp r.pattern := by rw [← fieldOp_and, OpcodeRow.accepts_iff.mp h]
    _ = r.opcode := hpattern

/-- The masks of R73 select disjoint sets (R82). -/
theorem eq_of_accepts {r r' : OpcodeRow} (hr : r ∈ opcodeRows) (hr' : r' ∈ opcodeRows) {cmd : CmdWord}
    (h : r.accepts cmd = true) (h' : r'.accepts cmd = true) : r = r' :=
  eq_of_opcode_eq r hr r' hr' ((fieldOp_of_accepts hr h).symm.trans (fieldOp_of_accepts hr' h'))

theorem rowOf_mem (i : Instr) : rowOf i ∈ opcodeRows := by
  cases i <;> simp [rowOf, opcodeRows]

/-- What the table of R73 has to say of a word for an answer of the decoder: the answered command's row accepts it, or no row
does. -/
def TableAgrees (cmd : CmdWord) : Except DecodeError Instr → Prop
  | .ok i => (rowOf i).accepts cmd = true
  | .error _ => ∀ r ∈ opcodeRows, ¬ r.accepts cmd = true

/-- The branches of the decoder, one for each row of the table and then the two errors. -/
theorem tableAgrees_decode (cmd : CmdWord) (arg : ArgWord) : TableAgrees cmd (decode cmd arg) := by
  unfold decode
  refine iteInduction (fun hinit => hinit) fun hinit => ?_
  refine iteInduction (fun htare => htare) fun htare => ?_
  refine iteInduction (fun hcalibrate => hcalibrate) fun hcalibrate => ?_
  refine iteInduction (fun hgetWeight => hgetWeight) fun hgetWeight => ?_
  refine iteInduction (fun hgetGain => hgetGain) fun hgetGain => ?_
  refine iteInduction (fun hsetGain => hsetGain) fun hsetGain => ?_
  refine iteInduction (fun hgetPd => hgetPd) fun hgetPd => ?_
  refine iteInduction (fun hsetPd => hsetPd) fun hsetPd => ?_
  refine iteInduction (fun hcleanup => hcleanup) fun hcleanup => ?_
  have hnone : ∀ r ∈ opcodeRows, ¬ r.accepts cmd = true := by simp [opcodeRows, *]
  exact iteInduction (fun _ => hnone) fun _ => hnone

theorem rowOf_accepts_of_decode {cmd : CmdWord} {arg : ArgWord} {i : Instr} (h : decode cmd arg = .ok i) :
    (rowOf i).accepts cmd = true := by
  simpa only [h, TableAgrees] using tableAgrees_decode cmd arg

theorem not_accepts_of_decode {cmd : CmdWord} {arg : ArgWord} {e : DecodeError} (h : decode cmd arg = .error e) :
    ∀ r ∈ opcodeRows, ¬ r.accepts cmd = true := by
  simpa only [h, TableAgrees] using tableAgrees_decode cmd arg

theorem accepts_iff_decode_ok {r : OpcodeRow} (hr : r ∈ opcodeRows) (cmd : CmdWord) (arg : ArgWord) :
    r.accepts cmd = true ↔ ∃ i, decode cmd arg = .ok i ∧ rowOf i = r := by
  constructor
  · intro haccepts
    cases hdecode : decode cmd arg with
    | ok i => exact ⟨i, rfl, eq_of_accepts (rowOf_mem i) hr (rowOf_accepts_of_decode hdecode) haccepts⟩
    | error e => exact absurd haccepts (not_accepts_of_decode hdecode r hr)
  · rintro ⟨i, hdecode, rfl⟩
    exact rowOf_accepts_of_decode hdecode

theorem decode_error_iff (cmd : CmdWord) (arg : ArgWord) :
    (∃ e, decode cmd arg = .error e) ↔ ∀ r ∈ opcodeRows, ¬ r.accepts cmd = true := by
  constructor
  · rintro ⟨e, hdecode⟩
    exact not_accepts_of_decode hdecode
  · intro hnone
    cases hdecode : decode cmd arg with
    | ok i => exact absurd (rowOf_accepts_of_decode hdecode) (hnone _ (rowOf_mem i))
    | error e => exact ⟨e, rfl⟩

/-- Settles O3: a row accepts a word exactly when the decoder answers a command of that row, because no second row accepts
the word; an error is the answer left when no row does. -/
theorem decodeIsTotalAndUnambiguous : Obligations.DecodeIsTotalAndUnambiguous := by
  intro cmd arg
  simp only [ne_eq, ← OpcodeRow.accepts_iff]
  exact ⟨fun _ hr => accepts_iff_decode_ok hr cmd arg, decode_error_iff cmd arg, fun _ hr _ hr' => eq_of_accepts hr hr'⟩

/-- Settles O5: only CALIBRATE's row reads the operand word, and it does not accept a word of another opcode. -/
theorem operandWordIsIgnored : Obligations.OperandWordIsIgnored := by
  intro cmd arg arg' hop
  have hcalibrate : ¬ rowCalibrate.accepts cmd = true := fun h =>
    hop (fieldOp_of_accepts (r := rowCalibrate) (by decide) h)
  unfold decode
  rw [if_neg hcalibrate, if_neg hcalibrate]

end Sys2Proof
end

section
/-! The two's-complement decode (40_bit_engine.md R106). Bit 23 is the sign: the pattern less the sign bit is its low 23 bits,
and both forms subtract the weight that bit 23 has as a sign from the weight it has in the pattern. -/

namespace Sys2Proof.Machine

theorem toNat_low23 (p : FramePattern) : (p &&& 0x7FFFFF).toNat = p.toNat % 2 ^ 23 :=
  Nat.and_two_pow_sub_one_eq_mod p.toNat 23

theorem le_toNat_of_bit23 {p : FramePattern} (h : p.getLsbD 23 = true) : 2 ^ 23 ≤ p.toNat :=
  Nat.ge_two_pow_of_testBit h

theorem s24_eq_toInt (p : FramePattern) : s24 p = p.toInt := by
  rw [BitVec.toInt_eq_msb_cond, BitVec.msb_eq_getLsbD_last]
  rfl

theorem s24_of_bit23 {p : FramePattern} (h : p.getLsbD 23 = true) : s24 p = ((p &&& 0x7FFFFF).toNat : Int) - 0x800000 := by
  have hge := le_toNat_of_bit23 h
  have hlt := p.isLt
  rw [toNat_low23, s24, if_pos h]
  omega

theorem s24_range (p : FramePattern) : -8388608 ≤ s24 p ∧ s24 p ≤ 8388607 := by
  rw [s24_eq_toInt]
  exact ⟨p.le_toInt, Int.le_of_lt_add_one p.toInt_lt⟩

/-- Settles O8: the first form is the definition, and the two forms differ only where bit 23 is 1 (`s24_of_bit23`). -/
theorem twosComplementDecodeFormsAgree : Obligations.TwosComplementDecodeFormsAgree := by
  intro p
  obtain ⟨hlower, hupper⟩ := s24_range p
  refine ⟨rfl, ?_, s24_eq_toInt p, hlower, hupper, by decide⟩
  split
  · next hbit => exact s24_of_bit23 hbit
  · next hbit => exact if_neg hbit

end Sys2Proof.Machine
end

section
/-! The wait for data ready (40_bit_engine.md R101). A micro-step of the bit engine is the same for every command. -/

namespace Sys2Proof.Machine

variable {s t : State} {b : Busy}

theorem autoWake_of_lineStep (h : lineStep s b = some t) (check : Option Status) : autoWake s b check = .next t :=
  segmentStep_line h

theorem answerPd_of_lineStep (h : lineStep s b = some t) : answerPd s b = .next t :=
  segmentStep_line h

/-- Whatever the command and the segment, a position inside a line sequence is the bit engine's. -/
theorem exec_of_lineStep (hb : s.seq = .busy b) (h : lineStep s b = some t) (i : Instr) : exec i s = .next t := by
  cases i with
  | init | setPd | cleanup => exact (onSegment_busy _ hb).trans (segmentStep_line h)
  | tare | calibrate | getWeight | getGain =>
    refine (onSegment_busy _ hb).trans ?_
    split
    · exact autoWake_of_lineStep h _
    · exact segmentStep_line h
  | setGain =>
    refine (onSegment_busy _ hb).trans ?_
    split
    · exact segmentStep_line h
    · exact autoWake_of_lineStep h none
    · exact segmentStep_line h
  | getPd =>
    refine (onSegment_busy _ hb).trans ?_
    split
    · split
      · exact autoWake_of_lineStep h none
      · exact answerPd_of_lineStep h
    · exact answerPd_of_lineStep h

theorem lineStep_wait (h : b.pos = .wait) : lineStep s b = some (waitReadyStep s b) := by
  simp only [lineStep, h]

theorem waitReadyStep_ready {rest : List Level} (h : s.dout = false :: rest) :
    waitReadyStep s b = { s with dout := rest }.goto { b with acc := 0 } (.bitHigh 0) := by
  rw [waitReadyStep, s.doutRead_laidOut _ _ h]

theorem waitReadyStep_notReady {rest : List Level} (h : s.dout = true :: rest) :
    waitReadyStep s b = { s with dout := rest }.delayThen b s.params.tPoll .wait := by
  rw [waitReadyStep, s.doutRead_laidOut _ _ h]

theorem exec_wait (hb : s.seq = .busy b) (hwait : b.pos = .wait) (i : Instr) : exec i s = .next (waitReadyStep s b) :=
  exec_of_lineStep hb (lineStep_wait hwait) i

/-- Settles O16: at the wait every command makes the micro-step of `WaitReady`, which takes one sample. -/
theorem waitReadySamplesThenDelays : Obligations.WaitReadySamplesThenDelays := by
  intro i s b rest hb hwait
  rw [exec_wait hb hwait i]
  exact ⟨fun hready => congrArg _ (waitReadyStep_ready hready), fun hnot => congrArg _ (waitReadyStep_notReady hnot)⟩

end Sys2Proof.Machine
end

section
/-! The wait that never ends (40_bit_engine.md R102, 20_memory.md R58). A step of a hung segment samples the host's pins, which
cannot touch the pending port or make a response, and then takes a unit of the poll's `Delay` or a sample that reads 1. So
the hang is kept by every step, as long as samples that read 1 are laid out. -/

namespace Sys2Proof.Machine

/-! ## The host's part of a step -/

/-- The host can take a response, and never gives one. -/
theorem eq_done_of_clockPort {pin : PortPins} {port : Port} {status : Status} {result : ResultWord}
    (h : clockPort pin port = .done status result) : port = .done status result := by
  cases port with
  | empty => cases hvalid : pin.cmdValid <;> simp [clockPort, hvalid] at h
  | pending cmd arg k => cases h
  | done status' result' => cases hready : pin.rspReady <;> simp_all [clockPort]

theorem done_of_clockPorts {pins : List PortPins} {ports : List Port} {q : Nat} {status : Status} {result : ResultWord}
    (h : (clockPorts pins ports)[q]? = some (.done status result)) : ports[q]? = some (.done status result) := by
  rw [clockPorts_getElem?] at h
  split at h
  · next pin port _ hport => rw [hport, eq_done_of_clockPort (Option.some.inj h)]
  · next port _ hport => rw [hport, h]
  all_goals cases h

/-- The state after an edge without reset: the edge is used up, and the ports have sampled their pins. -/
def State.afterPins (s : State) (pins : List PortPins) (rest : List Edge) : State :=
  { s with inputs := rest, ports := clockPorts pins s.ports }

theorem State.clock_of_noReset {s : State} (h : ∀ e ∈ s.inputs, e.rst = false) :
    ∃ pins rest, rest ⊆ s.inputs ∧
      (s.clock = .held (s.afterPins pins rest) ∨ s.clock = .free (s.afterPins pins rest)) := by
  cases hin : s.inputs with
  | nil =>
    refine ⟨[], [], List.Subset.refl _, .inr ?_⟩
    rw [State.clock_quiet hin, State.afterPins, ← hin]
    cases hports : s.ports <;> simp [clockPorts, ← hports]
  | cons e rest =>
    have hrst : e.rst = false := h e (by simp [hin])
    refine ⟨e.pins, rest, List.subset_cons_self e rest, ?_⟩
    cases hstall : e.stall <;> simp [State.clock, State.afterPins, hin, hrst, hstall]

/-! ## The hang -/

/-- The segment `b` of the command `cmd`, `arg` hangs for at least `m` more steps: it is at its wait, polling or between two polls, no reset
is coming, and the next `m` samples read 1. -/
structure Hung (b : Busy) (cmd : CmdWord) (arg : ArgWord) (seg m : Nat) (s : State) : Prop where
  busy : ∃ d, s.seq = .busy { b with delaying := d }
  pending : s.ports[b.port]? = some (.pending cmd arg seg)
  noReset : ∀ e ∈ s.inputs, e.rst = false
  notReady : ∃ n, m ≤ n ∧ s.dout = List.replicate n true

/-- No register has changed, and no port has a response that it did not have before. -/
structure NothingCame (s t : State) : Prop where
  registers : t.registers = s.registers
  responses : ∀ (q : Nat) (status : Status) (result : ResultWord),
    t.ports[q]? = some (.done status result) → s.ports[q]? = some (.done status result)

theorem NothingCame.refl (s : State) : NothingCame s s := ⟨rfl, fun _ _ _ h => h⟩

theorem NothingCame.trans {s t u : State} (h : NothingCame s t) (h' : NothingCame t u) : NothingCame s u :=
  ⟨h'.registers.trans h.registers, fun q status result hu => h.responses q status result (h'.responses q status result hu)⟩

theorem NothingCame.afterPins (s : State) (pins : List PortPins) (rest : List Edge) : NothingCame s (s.afterPins pins rest) :=
  ⟨rfl, fun _ _ _ h => done_of_clockPorts h⟩

section
variable {s : State} {b : Busy} {cmd : CmdWord} {arg : ArgWord} {seg m : Nat} {i : Instr}

theorem Hung.mono {n : Nat} (h : Hung b cmd arg seg n s) (hmn : m ≤ n) : Hung b cmd arg seg m s :=
  have ⟨l, hnl, hdout⟩ := h.notReady
  ⟨h.busy, h.pending, h.noReset, l, hmn.trans hnl, hdout⟩

theorem Hung.afterPins (h : Hung b cmd arg seg m s) {rest : List Edge} (hrest : rest ⊆ s.inputs) (pins : List PortPins) :
    Hung b cmd arg seg m (s.afterPins pins rest) :=
  ⟨h.busy, clockPorts_pending h.pending, fun e he => h.noReset e (hrest he), h.notReady⟩

/-- Between two polls the `Delay` goes on; at a poll the sample reads 1 and the next `Delay` begins. -/
theorem Hung.kept_by_engineStep (hwait : b.pos = .wait) (hdec : decode cmd arg = .ok i) (h : Hung b cmd arg seg (m + 1) s) :
    ∃ t, engineStep s = .next t ∧ Hung b cmd arg seg m t ∧ NothingCame s t := by
  obtain ⟨d, hseq⟩ := h.busy
  cases d with
  | true =>
    have hstep : engineStep s = .next (s.tick { b with delaying := true }) := by
      simp [engineStep, hseq]
    have hkept : Hung b cmd arg seg (m + 1) (s.tick { b with delaying := true }) :=
      ⟨⟨_, rfl⟩, h.pending, h.noReset, h.notReady⟩
    exact ⟨_, hstep, hkept.mono (Nat.le_succ m), rfl, fun _ _ _ hport => hport⟩
  | false =>
    obtain ⟨n, hmn, hdout⟩ := h.notReady
    obtain ⟨n, rfl⟩ : ∃ l, n = l + 1 := ⟨n - 1, by omega⟩
    rw [List.replicate_succ] at hdout
    have hexec : engineStep s = exec i s := by
      simp [engineStep, runMicroStep, hseq, h.pending, hdec]
    have hnext := exec_wait hseq hwait i
    rw [waitReadyStep_notReady hdout] at hnext
    exact ⟨_, hexec.trans hnext, ⟨⟨true, by simp [hwait]⟩, h.pending, h.noReset, n, by omega, rfl⟩, rfl, fun _ _ _ hport => hport⟩

/-- Every step keeps the hang, whatever the host does but reset. -/
theorem Hung.kept_by_step (hwait : b.pos = .wait) (hdec : decode cmd arg = .ok i) (h : Hung b cmd arg seg (m + 1) s) :
    ∃ t, step s = .next t ∧ Hung b cmd arg seg m t ∧ NothingCame s t := by
  obtain ⟨pins, rest, hrest, hheld | hfree⟩ := State.clock_of_noReset h.noReset
  · exact ⟨_, by simp [step, clockedStep, hheld], (h.afterPins hrest pins).mono (Nat.le_succ m), .afterPins s pins rest⟩
  · obtain ⟨t, hstep, hhung, hcame⟩ := Hung.kept_by_engineStep hwait hdec (h.afterPins hrest pins)
    exact ⟨t, by simp [step, clockedStep, hfree, hstep], hhung, (NothingCame.afterPins s pins rest).trans hcame⟩

theorem Hung.kept_by_steps (hwait : b.pos = .wait) (hdec : decode cmd arg = .ok i) (h : Hung b cmd arg seg m s) :
    ∃ t, steps m s = .next t ∧ Hung b cmd arg seg 0 t ∧ NothingCame s t := by
  induction m generalizing s with
  | zero => exact ⟨s, rfl, h, .refl s⟩
  | succ m ih =>
    obtain ⟨u, hstep, hhung, hcame⟩ := Hung.kept_by_step hwait hdec h
    obtain ⟨t, hsteps, hhung', hcame'⟩ := ih hhung
    exact ⟨t, by simp [steps, hstep, hsteps], hhung', hcame.trans hcame'⟩

end

/-- Settles O19: the state hangs (`Hung`), and `Hung.kept_by_steps` follows it through as many steps as samples that read 1 are laid out. -/
theorem hangKeepsTheSequencerBusy : Obligations.HangKeepsTheSequencerBusy := by
  intro k m s b cmd arg seg i hseq hwait hport hdec hreset hdout hkm
  have hhung : Hung b cmd arg seg k s := ⟨⟨b.delaying, hseq⟩, hport, hreset, m, hkm, hdout⟩
  obtain ⟨t, hsteps, ⟨⟨d, hbusy⟩, hpending, -, -⟩, hregisters, hresponses⟩ := hhung.kept_by_steps hwait hdec
  exact ⟨t, d, hsteps, hbusy, hregisters, hpending, hresponses⟩

end Sys2Proof.Machine
end

section
/-! The calibration pipeline's integers (42_calibration.md R170, R176). The model's sort is Mathlib's insertion sort, so the
sorted list is an ascending ordering of the list; a median is then one of its list's elements and so lies within their bounds. -/

namespace Sys2Proof.Machine

theorem insertAscending_eq_orderedInsert (x : Int) (l : List Int) : insertAscending x l = l.orderedInsert (· ≤ ·) x := by
  induction l with
  | nil => rfl
  | cons y ys ih => rw [insertAscending, List.orderedInsert_cons, ih]

theorem sortAscending_eq_insertionSort (s : List Int) : sortAscending s = s.insertionSort (· ≤ ·) := by
  induction s with
  | nil => rfl
  | cons x xs ih => rw [sortAscending, List.insertionSort_cons, insertAscending_eq_orderedInsert, ih]

theorem sortAscending_perm (s : List Int) : (sortAscending s).Perm s := by
  rw [sortAscending_eq_insertionSort]
  exact s.perm_insertionSort (· ≤ ·)

theorem sortAscending_pairwise (s : List Int) : (sortAscending s).Pairwise (· ≤ ·) := by
  rw [sortAscending_eq_insertionSort]
  exact s.pairwise_insertionSort (· ≤ ·)

section
variable {s : List Int}

theorem sortAscending_middle_eq_median (h : s ≠ []) : (sortAscending s)[s.length / 2]? = some (median s) := by
  have hmiddle : s.length / 2 < (sortAscending s).length := by
    rw [(sortAscending_perm s).length_eq]
    exact Nat.div_lt_self (List.length_pos_iff.mpr h) Nat.one_lt_two
  rw [median, List.getD_eq_getElem _ _ hmiddle, List.getElem?_eq_getElem hmiddle]

theorem median_mem (h : s ≠ []) : median s ∈ s :=
  (sortAscending_perm s).mem_iff.mp (List.mem_of_getElem? (sortAscending_middle_eq_median h))

end

/-- Settles O11: the sort is Mathlib's insertion sort, and the middle position of a non-empty list is within it. -/
theorem medianIsTheSortedMiddle : Obligations.MedianIsTheSortedMiddle := fun s =>
  ⟨sortAscending_perm s, sortAscending_pairwise s, fun h => ⟨sortAscending_middle_eq_median h, median_mem h⟩⟩

theorem sext64OfOffset_toInt (o : BitVec 24) : (sext64OfOffset o).toInt = o.toInt :=
  BitVec.toInt_signExtend_of_le (by decide)

/-- A median of frames is a frame's value, and the frame's own pattern is the one that stands for it. -/
theorem toInt_ofInt_median_of_frames {frames : List FramePattern} (h : frames ≠ []) :
    (BitVec.ofInt 24 (median (frames.map s24))).toInt = median (frames.map s24) := by
  obtain ⟨p, -, hp⟩ := List.mem_map.mp (median_mem (mt List.map_eq_nil_iff.mp h))
  rw [← hp, s24_eq_toInt, BitVec.ofInt_toInt]

/-- Settles O12: the difference's range follows from `s24_range`, which an `OFFSET` has too, and the rest from `median_mem`. -/
theorem integerResultsNeverWrap : Obligations.IntegerResultsNeverWrap := by
  refine ⟨fun p o => ?_, fun s lo hi hne hbounds => hbounds _ (median_mem hne), sext64OfOffset_toInt,
    fun _ => toInt_ofInt_median_of_frames⟩
  have hframe := s24_range p
  have hoffset := s24_range o
  rw [s24_eq_toInt o] at hoffset
  omega

end Sys2Proof.Machine
end

section
/-! CLEANUP and illegal words (43_lifecycle.md R211, R212, R214). Both end in one micro-step: CLEANUP at the first micro-step of its
one segment, an illegal word at the grant, where its segment is `Gate()` alone. -/

namespace Sys2Proof.Machine

variable {s : State} {b : Busy}

/-! ## CLEANUP -/

theorem requireInitd_of_initd (go : Result) (h : s.initd = true) : requireInitd s b go = go :=
  if_pos h

theorem requireInitd_of_not_initd (go : Result) (h : s.initd = false) :
    requireInitd s b go = .next (s.raise b .notInitialized) := by
  simp [requireInitd, h]

theorem exec_cleanup_start (hb : s.seq = .busy b) (hstart : b.pos = .start) :
    exec .cleanup s =
      requireInitd s b (.next ({ s with sckOe := false, sck := false, initd := false }.respond b 0)) :=
  (onSegment_busy _ hb).trans (segmentStep_start hstart)

/-- Settles O23: CLEANUP is the lifecycle test, then the register writes and the response in one micro-step. -/
theorem cleanupEffect : Obligations.CleanupEffect := by
  intro s b hb hstart
  rw [exec_cleanup_start hb hstart]
  exact ⟨requireInitd_of_initd _, requireInitd_of_not_initd _⟩

/-! ## Illegal words -/

theorem clockPorts_nil (ports : List Port) : clockPorts [] ports = ports := by
  cases ports <;> rfl

/-- An edge that leaves the engine free to step has sampled the pins and done nothing else: a reset or a stall would have held it. -/
theorem State.eq_afterPins_of_clock_free {s1 : State} (h : s.clock = .free s1) : ∃ pins rest, s1 = s.afterPins pins rest := by
  cases hin : s.inputs with
  | nil =>
    rw [State.clock_quiet hin] at h
    cases h
    exact ⟨[], [], by rw [State.afterPins, clockPorts_nil, ← hin]⟩
  | cons e rest =>
    simp only [State.clock, hin] at h
    split at h
    · next hrst => cases h
    · next hrst =>
      split at h
      · next hstall => cases h
      · next hstall =>
        cases h
        exact ⟨e.pins, rest, rfl⟩

/-- The step that grants a port makes the first micro-step of its segment. -/
theorem step_of_grant {s1 s' : State} (hclock : s.clock = .free s1) (hidle : s1.seq = .idle)
    (hgrant : s1.grant = some (s', b)) : step s = runMicroStep s' b := by
  simp only [step, clockedStep, hclock, engineStep, hidle, hgrant]

theorem runMicroStep_of_illegal {cmd : CmdWord} {arg : ArgWord} {k : Nat} {e : DecodeError}
    (hport : s.ports[b.port]? = some (.pending cmd arg k)) (hdec : decode cmd arg = .error e) :
    runMicroStep s b = .next (s.raise b .illegalCommand) := by
  simp only [runMicroStep, hport, hdec, runIllegal]

/-- Settles O33: the granted segment is the error alone, and neither the pins nor the grant touch a register or the timer. -/
theorem illegalWordEndsAtTheGate : Obligations.IllegalWordEndsAtTheGate := by
  intro s s1 s' b cmd arg k e hclock hidle hgrant hport hdec
  refine ⟨(step_of_grant hclock hidle hgrant).trans (runMicroStep_of_illegal hport hdec), ?_⟩
  obtain ⟨pins, rest, rfl⟩ := State.eq_afterPins_of_clock_free hclock
  obtain ⟨-, -, _, _, -, -, -, -, -, rfl⟩ := State.grant_spec hgrant
  exact ⟨rfl, rfl, rfl⟩

end Sys2Proof.Machine
end

section
/-! The encoder against the decoder (30_encoding.md R71 to R79, R84). A row's mask is the complement of the fields its opcode
uses, with `OP` added; so a row accepts a word that has its opcode and no 1 outside its fields, and such a word is its fields
put together. -/

namespace Sys2Proof

/-! ## The masks and the fields -/

theorem mask_and_pattern_of_row :
    ∀ r ∈ opcodeRows, r.mask = 0xF ||| ~~~usedBits r.opcode ∧ r.pattern = r.opcode.setWidth 32 ∧
      r.opcode.setWidth 32 &&& ~~~usedBits r.opcode = 0 := by decide

theorem and_low_eq_fieldOp (cmd : CmdWord) : cmd &&& 0xF = (fieldOp cmd).setWidth 32 := by
  apply BitVec.eq_of_toNat_eq
  have hlow : (cmd &&& 0xF).toNat = cmd.toNat % 16 := Nat.and_two_pow_sub_one_eq_mod _ 4
  rw [hlow, BitVec.toNat_setWidth, fieldOp, BitVec.extractLsb'_toNat, Nat.shiftRight_zero]
  omega

/-- R73 with R79: a row accepts the words that carry its opcode and have no 1 outside the fields it uses. -/
theorem accepts_iff_fields {r : OpcodeRow} (hr : r ∈ opcodeRows) (cmd : CmdWord) :
    r.accepts cmd = true ↔ fieldOp cmd = r.opcode ∧ cmd &&& ~~~usedBits r.opcode = 0 := by
  obtain ⟨hmask, hpattern, hdisjoint⟩ := mask_and_pattern_of_row r hr
  rw [OpcodeRow.accepts_iff, hmask, hpattern, BitVec.and_or_distrib_left, and_low_eq_fieldOp]
  constructor
  · intro h
    have hop : fieldOp cmd = r.opcode :=
      fieldOp_of_accepts hr (by rw [OpcodeRow.accepts_iff, hmask, hpattern, BitVec.and_or_distrib_left,
        and_low_eq_fieldOp, h])
    rw [hop] at h
    have hzero := congrArg (· &&& ~~~usedBits r.opcode) h
    simp only [BitVec.and_or_distrib_right, hdisjoint, BitVec.and_assoc, BitVec.and_self] at hzero
    exact ⟨hop, by simpa using hzero⟩
  · rintro ⟨hop, hzero⟩
    simp [hop, hzero]

theorem accepts_of_decode {cmd : CmdWord} {arg : ArgWord} {i : Instr} (h : decode cmd arg = .ok i) :
    fieldOp cmd = (rowOf i).opcode ∧ cmd &&& ~~~usedBits (rowOf i).opcode = 0 :=
  (accepts_iff_fields (rowOf_mem i) cmd).mp (rowOf_accepts_of_decode h)

/-- A part of a word that lies outside the fields its opcode uses. -/
theorem toNat_extract_eq_zero {cmd m : CmdWord} (h : cmd &&& m = 0) (start len : Nat)
    (hm : m.extractLsb' start len = BitVec.allOnes len) : (cmd.extractLsb' start len).toNat = 0 := by
  have hzero : cmd.extractLsb' start len = (0 : CmdWord).extractLsb' start len := by
    rw [← h, BitVec.extractLsb'_and, hm, BitVec.and_allOnes]
  simp [hzero]

/-- A word is its fields and its never-used bits, each at its place (R71). -/
theorem toNat_eq_fields (cmd : CmdWord) :
    cmd.toNat = (fieldOp cmd).toNat + (cmd.extractLsb' 4 4).toNat * 2 ^ 4 + fieldN cmd * 2 ^ 8 + fieldG cmd * 2 ^ 16 +
      fieldV cmd * 2 ^ 24 + (cmd.extractLsb' 25 7).toNat * 2 ^ 25 := by
  have hlt := cmd.isLt
  simp only [fieldOp, fieldN, fieldG, fieldV, BitVec.extractLsb'_toNat, Nat.shiftRight_eq_div_pow]
  omega

/-! ## The operands a row reads -/

/-- The command with its operands as its row reads them: from the word's fields, and CALIBRATE's weight from `arg`. -/
def Instr.withOperands (cmd : CmdWord) (arg : ArgWord) : Instr → Instr
  | .init _ => .init (fieldG cmd)
  | .tare _ => .tare (fieldN cmd)
  | .calibrate _ _ => .calibrate (fieldN cmd) arg
  | .setGain _ => .setGain (fieldG cmd)
  | .setPd _ => .setPd (fieldV cmd)
  | .getWeight => .getWeight
  | .getGain => .getGain
  | .getPd => .getPd
  | .cleanup => .cleanup

/-- The command of an opcode, with its operands read from the two words. -/
def commandAt (cmd : CmdWord) (arg : ArgWord) : BitVec 4 → Option Instr
  | 0x1 => some (.init (fieldG cmd))
  | 0x2 => some (.tare (fieldN cmd))
  | 0x3 => some (.calibrate (fieldN cmd) arg)
  | 0x4 => some .getWeight
  | 0x5 => some .getGain
  | 0x6 => some (.setGain (fieldG cmd))
  | 0x7 => some .getPd
  | 0x8 => some (.setPd (fieldV cmd))
  | 0x9 => some .cleanup
  | _ => none

theorem commandAt_rowOf (cmd : CmdWord) (arg : ArgWord) (i : Instr) :
    commandAt cmd arg (rowOf i).opcode = some (i.withOperands cmd arg) := by
  cases i <;> rfl

/-- The row alone says which command is read. -/
theorem withOperands_eq_of_rowOf_eq {i j : Instr} (h : rowOf i = rowOf j) (cmd : CmdWord) (arg : ArgWord) :
    i.withOperands cmd arg = j.withOperands cmd arg := by
  apply Option.some.inj
  rw [← commandAt_rowOf, h, commandAt_rowOf]

/-- The answered command has its operands from the word. -/
def ReadsOperands (cmd : CmdWord) (arg : ArgWord) : Except DecodeError Instr → Prop
  | .ok i => i.withOperands cmd arg = i
  | .error _ => True

theorem readsOperands_decode (cmd : CmdWord) (arg : ArgWord) : ReadsOperands cmd arg (decode cmd arg) := by
  unfold decode
  refine iteInduction (fun _ => rfl) fun _ => ?_
  refine iteInduction (fun _ => rfl) fun _ => ?_
  refine iteInduction (fun _ => rfl) fun _ => ?_
  refine iteInduction (fun _ => rfl) fun _ => ?_
  refine iteInduction (fun _ => rfl) fun _ => ?_
  refine iteInduction (fun _ => rfl) fun _ => ?_
  refine iteInduction (fun _ => rfl) fun _ => ?_
  refine iteInduction (fun _ => rfl) fun _ => ?_
  refine iteInduction (fun _ => rfl) fun _ => ?_
  exact iteInduction (fun _ => trivial) fun _ => trivial

theorem withOperands_of_decode {cmd : CmdWord} {arg : ArgWord} {i : Instr} (h : decode cmd arg = .ok i) :
    i.withOperands cmd arg = i := by
  simpa only [h, ReadsOperands] using readsOperands_decode cmd arg

theorem fitsByte_iff (x : Nat) : fitsByte x = true ↔ x ≤ 255 := decide_eq_true_iff

theorem fitsBit_iff (x : Nat) : fitsBit x = true ↔ x ≤ 1 := decide_eq_true_iff

theorem fieldN_le (cmd : CmdWord) : fieldN cmd ≤ 255 := Nat.le_of_lt_succ (cmd.extractLsb' 8 8).isLt

theorem fieldG_le (cmd : CmdWord) : fieldG cmd ≤ 255 := Nat.le_of_lt_succ (cmd.extractLsb' 16 8).isLt

theorem fieldV_le (cmd : CmdWord) : fieldV cmd ≤ 1 := Nat.le_of_lt_succ (cmd.extractLsb' 24 1).isLt

theorem fieldN_ofNat {op n : Nat} (hop : op < 256) (hn : n ≤ 255) : fieldN (BitVec.ofNat 32 (op + n * 2 ^ 8)) = n := by
  simp only [fieldN, BitVec.extractLsb'_toNat, BitVec.toNat_ofNat, Nat.shiftRight_eq_div_pow]
  omega

theorem fieldG_ofNat {op g : Nat} (hop : op < 256) (hg : g ≤ 255) : fieldG (BitVec.ofNat 32 (op + g * 2 ^ 16)) = g := by
  simp only [fieldG, BitVec.extractLsb'_toNat, BitVec.toNat_ofNat, Nat.shiftRight_eq_div_pow]
  omega

theorem fieldV_ofNat {op v : Nat} (hop : op < 256) (hv : v ≤ 1) : fieldV (BitVec.ofNat 32 (op + v * 2 ^ 24)) = v := by
  have hword : op + v * 2 ^ 24 < 2 ^ 32 := by omega
  rw [fieldV, BitVec.extractLsb'_toNat, BitVec.toNat_ofNat, Nat.shiftRight_eq_div_pow, Nat.mod_eq_of_lt hword,
    Nat.add_mul_div_right _ _ (by decide), Nat.div_eq_of_lt (by omega), Nat.zero_add, Nat.mod_eq_of_lt (by omega)]

/-- The operand that the encoder put into its field is read back. -/
theorem withOperands_encode {i : Instr} (h : i.wellFormed = true) : i.withOperands (encodeWord i) (encodeArg i) = i := by
  cases i with
  | init g =>
    rw [Instr.wellFormed, fitsByte_iff] at h
    rw [Instr.withOperands, encodeWord, fieldG_ofNat (by decide) h]
  | tare n =>
    rw [Instr.wellFormed, fitsByte_iff] at h
    rw [Instr.withOperands, encodeWord, fieldN_ofNat (by decide) h]
  | calibrate n w =>
    rw [Instr.wellFormed, fitsByte_iff] at h
    rw [Instr.withOperands, encodeWord, fieldN_ofNat (by decide) h, encodeArg]
  | setGain g =>
    rw [Instr.wellFormed, fitsByte_iff] at h
    rw [Instr.withOperands, encodeWord, fieldG_ofNat (by decide) h]
  | setPd v =>
    rw [Instr.wellFormed, fitsBit_iff] at h
    rw [Instr.withOperands, encodeWord, fieldV_ofNat (by decide) h]
  | getWeight | getGain | getPd | cleanup => rfl

theorem opcodeField_encode (i : Instr) : Laws.OpcodeField.Statement i := by
  cases i with
  | init g => exact Laws.OpcodeField.init g
  | tare n => exact Laws.OpcodeField.tare n
  | calibrate n w => exact Laws.OpcodeField.calibrate n w
  | getWeight => exact Laws.OpcodeField.getWeight
  | getGain => exact Laws.OpcodeField.getGain
  | setGain g => exact Laws.OpcodeField.setGain g
  | getPd => exact Laws.OpcodeField.getPd
  | setPd v => exact Laws.OpcodeField.setPd v
  | cleanup => exact Laws.OpcodeField.cleanup

theorem rowOf_accepts_encodeWord {i : Instr} (h : i.wellFormed = true) : (rowOf i).accepts (encodeWord i) = true :=
  (accepts_iff_fields (rowOf_mem i) _).mpr (opcodeField_encode i h)

/-- Settles O1: the command's row accepts the encoded word, so the decoder answers a command of that row, and the row reads the
operands back from their fields. -/
theorem decodeOfEncodeIsTheCommand : Obligations.DecodeOfEncodeIsTheCommand := by
  intro i hwf
  obtain ⟨j, hdec, hrow⟩ :=
    (accepts_iff_decode_ok (rowOf_mem i) (encodeWord i) (encodeArg i)).mp (rowOf_accepts_encodeWord hwf)
  have hji : j = i := by
    rw [← withOperands_of_decode hdec, withOperands_eq_of_rowOf_eq hrow, withOperands_encode hwf]
  rw [hdec, hji]

/-! ## The word of a decoded command -/

theorem wellFormed_withOperands (cmd : CmdWord) (arg : ArgWord) (i : Instr) :
    (i.withOperands cmd arg).wellFormed = true := by
  cases i <;> simp only [Instr.withOperands, Instr.wellFormed, fitsByte_iff, fitsBit_iff, fieldN_le, fieldG_le, fieldV_le]

/-- The word with these fields (R71), and 0 in the bits that no opcode uses. -/
def fieldsWord (op : BitVec 4) (n g v : Nat) : CmdWord :=
  BitVec.ofNat 32 (op.toNat + n * 2 ^ 8 + g * 2 ^ 16 + v * 2 ^ 24)

theorem never_used (op : BitVec 4) :
    (~~~usedBits op).extractLsb' 4 4 = BitVec.allOnes 4 ∧ (~~~usedBits op).extractLsb' 25 7 = BitVec.allOnes 7 := by
  revert op
  decide

theorem eq_fieldsWord {cmd : CmdWord} {op : BitVec 4} (hop : fieldOp cmd = op) (hzero : cmd &&& ~~~usedBits op = 0) :
    cmd = fieldsWord op (fieldN cmd) (fieldG cmd) (fieldV cmd) := by
  apply BitVec.eq_of_toNat_eq
  have hlow := toNat_extract_eq_zero hzero 4 4 (never_used op).1
  have hhigh := toNat_extract_eq_zero hzero 25 7 (never_used op).2
  have hsplit := toNat_eq_fields cmd
  have hlt := cmd.isLt
  rw [fieldsWord, BitVec.toNat_ofNat, ← hop]
  omega

section
variable {cmd : CmdWord} {op : BitVec 4}

theorem fieldN_eq_zero (hzero : cmd &&& ~~~usedBits op = 0)
    (hunused : (~~~usedBits op).extractLsb' 8 8 = BitVec.allOnes 8) : fieldN cmd = 0 :=
  toNat_extract_eq_zero hzero 8 8 hunused

theorem fieldG_eq_zero (hzero : cmd &&& ~~~usedBits op = 0)
    (hunused : (~~~usedBits op).extractLsb' 16 8 = BitVec.allOnes 8) : fieldG cmd = 0 :=
  toNat_extract_eq_zero hzero 16 8 hunused

theorem fieldV_eq_zero (hzero : cmd &&& ~~~usedBits op = 0)
    (hunused : (~~~usedBits op).extractLsb' 24 1 = BitVec.allOnes 1) : fieldV cmd = 0 :=
  toNat_extract_eq_zero hzero 24 1 hunused

end

/-- A word with no 1 outside the fields of its command's row is the encoder's word of the operands read from it. -/
theorem encodeWord_of_decode {cmd : CmdWord} {arg : ArgWord} {i : Instr} (h : decode cmd arg = .ok i) :
    encodeWord i = cmd := by
  obtain ⟨hop, hzero⟩ := accepts_of_decode h
  have hword := eq_fieldsWord hop hzero
  rw [← withOperands_of_decode h]
  clear hop h
  cases i with
  | init g =>
    rw [fieldN_eq_zero (op := 0x1) hzero (by decide), fieldV_eq_zero (op := 0x1) hzero (by decide)] at hword
    exact (hword.trans (by simp [fieldsWord, encodeWord, rowOf, rowInit, Instr.withOperands])).symm
  | tare n =>
    rw [fieldG_eq_zero (op := 0x2) hzero (by decide), fieldV_eq_zero (op := 0x2) hzero (by decide)] at hword
    exact (hword.trans (by simp [fieldsWord, encodeWord, rowOf, rowTare, Instr.withOperands])).symm
  | calibrate n w =>
    rw [fieldG_eq_zero (op := 0x3) hzero (by decide), fieldV_eq_zero (op := 0x3) hzero (by decide)] at hword
    exact (hword.trans (by simp [fieldsWord, encodeWord, rowOf, rowCalibrate, Instr.withOperands])).symm
  | setGain g =>
    rw [fieldN_eq_zero (op := 0x6) hzero (by decide), fieldV_eq_zero (op := 0x6) hzero (by decide)] at hword
    exact (hword.trans (by simp [fieldsWord, encodeWord, rowOf, rowSetGain, Instr.withOperands])).symm
  | setPd v =>
    rw [fieldN_eq_zero (op := 0x8) hzero (by decide), fieldG_eq_zero (op := 0x8) hzero (by decide)] at hword
    exact (hword.trans (by simp [fieldsWord, encodeWord, rowOf, rowSetPd, Instr.withOperands])).symm
  | getWeight | getGain | getPd | cleanup =>
    rw [fieldN_eq_zero hzero (by decide), fieldG_eq_zero hzero (by decide), fieldV_eq_zero hzero (by decide)] at hword
    exact hword.symm

/-- Settles O2: the operands are the fields' values, which fit them, and the word has nothing beside its fields. -/
theorem encodeOfDecodeIsTheWord : Obligations.EncodeOfDecodeIsTheWord := by
  intro cmd arg i h
  have hread := withOperands_of_decode h
  refine ⟨hread ▸ wellFormed_withOperands cmd arg i, encodeWord_of_decode h, ?_⟩
  rintro n w rfl
  exact (Instr.calibrate.inj hread).2.symm

/-- Every assigned opcode has a row. -/
theorem exists_row_of_assigned :
    ∀ op : BitVec 4, op ≠ 0 → op.toNat < 0xA → ∃ r ∈ opcodeRows, r.opcode = op := by decide

theorem opcode_of_row_assigned : ∀ r ∈ opcodeRows, r.opcode ≠ 0 ∧ r.opcode.toNat < 0xA := by decide

/-- Settles O4: no row accepts a word exactly where its opcode has no row, or its row finds a 1 outside its fields. -/
theorem illegalWordsAreThese : Obligations.IllegalWordsAreThese := by
  intro cmd arg
  rw [decode_error_iff]
  constructor
  · intro hnone
    by_contra! hlegal
    obtain ⟨hne, hlt, hzero⟩ := hlegal
    obtain ⟨r, hr, hop⟩ := exists_row_of_assigned (fieldOp cmd) hne hlt
    exact hnone r hr ((accepts_iff_fields hr cmd).mpr ⟨hop.symm, by rw [hop, hzero]⟩)
  · intro hillegal r hr haccepts
    obtain ⟨hop, hzero⟩ := (accepts_iff_fields hr cmd).mp haccepts
    obtain ⟨hne, hlt⟩ := opcode_of_row_assigned r hr
    rw [hop] at hillegal
    rcases hillegal with h | h | h
    · exact hne h
    · omega
    · exact h hzero

end Sys2Proof

namespace Sys2Proof.Machine

/-- Settles O6: a default stands for 0 only, and an accepted gain is one of three numbers. -/
theorem operandFormsMeanTheirValues : Obligations.OperandFormsMeanTheirValues := by
  have haccepted (g : Nat) : gainAccepted g = true ↔ g = 0x80 ∨ g = 0x40 ∨ g = 0x20 := by
    simp [gainAccepted, or_assoc]
  refine ⟨fun n hn => ?_, rfl, rfl, fun g _ => ?_, fun g _ => haccepted g, rfl, rfl, rfl⟩
  · unfold sampleCount
    split <;> omega
  · rw [haccepted, initGain]
    split <;> omega

/-- Settles O7: the decoder is run on the six words. -/
theorem writtenOutWordsDecode : Obligations.WrittenOutWordsDecode := by
  unfold Obligations.WrittenOutWordsDecode
  decide

end Sys2Proof.Machine
end

section
/-! The accumulator (40_bit_engine.md R104) and the pulses of a frame (R105). -/

namespace Sys2Proof.Machine

theorem accumulate_getLsbD (acc : FramePattern) (v : Level) (j : Nat) (hj : j < 24) :
    (accumulate acc v).getLsbD j = if j = 0 then v else acc.getLsbD (j - 1) := by
  have hbit : (BitVec.ofBool v).getLsbD j = (decide (j = 0) && v) := by
    cases v <;> cases j <;> simp [BitVec.ofBool]
  simp only [accumulate, BitVec.getLsbD_or, BitVec.getLsbD_shiftLeft, BitVec.zeroExtend_eq_setWidth, BitVec.getLsbD_setWidth, hbit]
  by_cases hzero : j = 0
  · simp [hzero]
  · simp [hzero, hj, show ¬ j < 1 by omega]

/-- After more samples, the last ones stand in the low bits, the latest in bit 0, and what was there before them stands above. -/
theorem foldl_accumulate_getLsbD (bits : List Level) (acc : FramePattern) (j : Nat) (hj : j < 24) :
    (bits.foldl accumulate acc).getLsbD j =
      if j < bits.length then bits.getD (bits.length - 1 - j) false else acc.getLsbD (j - bits.length) := by
  induction bits generalizing acc with
  | nil => simp
  | cons v bits ih =>
    rw [List.foldl_cons, ih, List.length_cons]
    by_cases hlater : j < bits.length
    · have hindex : bits.length + 1 - 1 - j = (bits.length - 1 - j) + 1 := by omega
      rw [if_pos hlater, if_pos (by omega), hindex, List.getD_cons_succ]
    · rw [if_neg hlater, accumulate_getLsbD _ _ _ (by omega)]
      by_cases hfirst : j = bits.length
      · simp [hfirst]
      · rw [if_neg (by omega), if_neg (by omega), Nat.sub_sub]

theorem foldl_accumulate_lt (bits : List Level) :
    (bits.foldl accumulate 0).toNat < 2 ^ bits.length := by
  apply Nat.lt_pow_two_of_testBit
  intro j hj
  by_cases hwide : j < 24
  · rw [BitVec.testBit_toNat, foldl_accumulate_getLsbD bits 0 j hwide, if_neg (by omega)]
    exact BitVec.getLsbD_zero
  · rw [BitVec.testBit_toNat]
    exact BitVec.getLsbD_of_ge _ _ (by omega)

/-- A sample is put below the bits that the accumulator holds. -/
theorem accumulate_lt {acc : FramePattern} {k : Nat} (h : acc.toNat < 2 ^ k) (v : Level) :
    (accumulate acc v).toNat < 2 ^ (k + 1) := by
  apply Nat.lt_pow_two_of_testBit
  intro j hj
  by_cases hwide : j < 24
  · rw [BitVec.testBit_toNat, accumulate_getLsbD acc v j hwide, if_neg (by omega), ← BitVec.testBit_toNat]
    exact Nat.testBit_eq_false_of_lt (h.trans_le (Nat.pow_le_pow_right (by decide) (by omega)))
  · rw [BitVec.testBit_toNat]
    exact BitVec.getLsbD_of_ge _ _ (by omega)

/-- Settles O9: the samples fill the accumulator from below, so nothing stands above them, and 24 of them fill it. -/
theorem accumulatorHoldsTheSamples : Obligations.AccumulatorHoldsTheSamples := by
  intro bits
  refine ⟨fun _ => foldl_accumulate_lt bits, fun hlen i hi => ?_⟩
  rw [foldl_accumulate_getLsbD bits 0 _ (by omega), if_pos (by omega), hlen]
  congr 1
  omega

theorem frameBits_length (p : FramePattern) : (frameBits p).length = 24 := by
  simp [frameBits]

/-- The bits of a frame, MSB first, accumulate to its pattern. -/
theorem foldl_accumulate_frameBits (p : FramePattern) (acc : FramePattern) : (frameBits p).foldl accumulate acc = p := by
  apply BitVec.eq_of_getLsbD_eq
  intro j hj
  rw [foldl_accumulate_getLsbD _ _ _ hj, frameBits_length, if_pos hj, frameBits, List.getD_eq_getElem _ _ (by simp; omega),
    List.getElem_map, List.getElem_range, BitVec.getMsbD, show 24 - 1 - (24 - 1 - j) = j by omega]
  simp
  omega

/-- Settles O10: the table of R105. -/
theorem pulsesOfTheGains : Obligations.PulsesOfTheGains := by
  unfold Obligations.PulsesOfTheGains pulses
  decide

end Sys2Proof.Machine
end

section
/-! The segments of the commands. A micro-step of any command is that of its segment in progress (`exec_eq_segmentStep`), so each
command's own micro-steps are read off `ownSteps`. -/

namespace Sys2Proof.Machine

variable {s : State} {b : Busy}

/-- The auto-wake segment at its own positions (40_bit_engine.md R113). -/
def wakeSteps (s : State) (b : Busy) (check : Option Status) : SegmentSteps where
  start := requireInitd s b (
    match check with
    | some status => .next (s.raise b status)
    | none => if s.pd then .next (s.beginWake b) else .next (s.endSegment b))
  frameEnd := .next ({ s with pd := false }.endSegment b)

/-- A segment that only answers (41_gain_power.md R140, R142). -/
def answerSteps (s : State) (b : Busy) (result : ResultWord) : SegmentSteps where
  start := requireInitd s b (.next (s.respond b result))

/-- A segment that reads frames (42_calibration.md R171; 41_gain_power.md R141). -/
def readSteps (s : State) (b : Busy) (finish : State) : SegmentSteps where
  start := requireInitd s b (.next (s.beginFrame b))
  frameEnd := .next finish

/-- What the command's segment in progress does at the positions that are its own. -/
def ownSteps (s : State) (b : Busy) (i : Instr) : SegmentSteps :=
  match i, b.seg with
  | .init g, _ =>
    { start := .next (beginInit (initGain g) s b)
      initDrive := .next ((initRegisters (initGain g) s).beginFrame b)
      frameEnd := .next (s.respond b 0) }
  | .tare _, 0 => wakeSteps s b none
  | .tare n, _ + 1 => readSteps s b (collectSample (sampleCount n) (s24 b.acc) s b (finishTare s b))
  | .calibrate _ w, 0 => wakeSteps s b (weightCheck w)
  | .calibrate n w, _ + 1 =>
    readSteps s b (collectSample (sampleCount n) (s24 b.acc - s.offset.toInt) s b (finishCalibrate w s b))
  | .getWeight, 0 => wakeSteps s b none
  | .getWeight, _ + 1 =>
    { start := requireInitd s b (.next (if isZero s.scale then s.raise b .divisionByZero else s.beginFrame b))
      frameEnd := .next (finishWeight (s24 b.acc) s b) }
  | .getGain, 0 => wakeSteps s b none
  | .getGain, _ + 1 => answerSteps s b (zext64OfGain s.gain)
  | .setGain g, 0 => { start := requireInitd s b (.next (storeGain g s b)) }
  | .setGain _, 1 => wakeSteps s b none
  | .setGain _, _ + 2 => readSteps s b (s.respond b 0)
  | .getPd, 0 => if s.params.pdGetterWakes then wakeSteps s b none else answerSteps s b (zext64OfBit s.pd)
  | .getPd, _ + 1 => answerSteps s b (zext64OfBit s.pd)
  | .setPd v, _ =>
    { start := requireInitd s b (.next (beginPowerTransition (powerDownAsked v) s b))
      frameEnd := .next ({ s with pd := false }.respond b 0)
      holdEnd := .next ({ s with pd := true }.respond b 0) }
  | .cleanup, _ =>
    { start := requireInitd s b (.next ({ s with sckOe := false, sck := false, initd := false }.respond b 0)) }

/-- A command's micro-step is that of its segment in progress. -/
theorem exec_eq_segmentStep (hb : s.seq = .busy b) (i : Instr) : exec i s = segmentStep s b (ownSteps s b i) := by
  cases i with
  | init | setPd | cleanup => exact onSegment_busy _ hb
  | tare | calibrate | getWeight | getGain =>
    refine (onSegment_busy _ hb).trans ?_
    rcases hseg : b.seg with _ | k <;> simp only [ownSteps, hseg] <;> rfl
  | setGain =>
    refine (onSegment_busy _ hb).trans ?_
    rcases hseg : b.seg with _ | _ | k <;> simp only [ownSteps, hseg] <;> rfl
  | getPd =>
    refine (onSegment_busy _ hb).trans ?_
    rcases hseg : b.seg with _ | k <;> simp only [ownSteps, hseg]
    · split <;> rfl
    · rfl

theorem exec_start (hb : s.seq = .busy b) (hpos : b.pos = .start) (i : Instr) : exec i s = (ownSteps s b i).start :=
  (exec_eq_segmentStep hb i).trans (segmentStep_start hpos)

theorem exec_initDrive (hb : s.seq = .busy b) (hpos : b.pos = .initDrive) (i : Instr) :
    exec i s = (ownSteps s b i).initDrive :=
  (exec_eq_segmentStep hb i).trans (segmentStep_initDrive hpos)

theorem exec_frameEnd (hb : s.seq = .busy b) (hpos : b.pos = .frameEnd) (i : Instr) :
    exec i s = (ownSteps s b i).frameEnd :=
  (exec_eq_segmentStep hb i).trans (segmentStep_frameEnd hpos)

theorem exec_holdEnd (hb : s.seq = .busy b) (hpos : b.pos = .holdEnd) (i : Instr) :
    exec i s = (ownSteps s b i).holdEnd :=
  (exec_eq_segmentStep hb i).trans (segmentStep_holdEnd hpos)

/-! ## The segments of each command -/

theorem ownSteps_tare_wake (h : b.seg = 0) (n : Nat) : ownSteps s b (.tare n) = wakeSteps s b none := by
  simp only [ownSteps, h]

theorem ownSteps_calibrate_wake (h : b.seg = 0) (n : Nat) (w : F64) :
    ownSteps s b (.calibrate n w) = wakeSteps s b (weightCheck w) := by
  simp only [ownSteps, h]

theorem ownSteps_getWeight_wake (h : b.seg = 0) : ownSteps s b .getWeight = wakeSteps s b none := by
  simp only [ownSteps, h]

theorem ownSteps_getGain_wake (h : b.seg = 0) : ownSteps s b .getGain = wakeSteps s b none := by
  simp only [ownSteps, h]

theorem ownSteps_setGain_wake (h : b.seg = 1) (g : Nat) : ownSteps s b (.setGain g) = wakeSteps s b none := by
  simp only [ownSteps, h]

theorem ownSteps_getPd_wake (h : b.seg = 0) (hwakes : s.params.pdGetterWakes = true) :
    ownSteps s b .getPd = wakeSteps s b none := by
  simp only [ownSteps, h, hwakes, if_true]

theorem ownSteps_tare_sample (h : b.seg = 1) (n : Nat) : ownSteps s b (.tare n) =
    readSteps s b (collectSample (sampleCount n) (s24 b.acc) s b (finishTare s b)) := by
  simp only [ownSteps, h]

theorem ownSteps_calibrate_sample (h : b.seg = 1) (n : Nat) (w : F64) : ownSteps s b (.calibrate n w) =
    readSteps s b (collectSample (sampleCount n) (s24 b.acc - s.offset.toInt) s b (finishCalibrate w s b)) := by
  simp only [ownSteps, h]

theorem ownSteps_getWeight_sample (h : b.seg = 1) : ownSteps s b .getWeight =
    { start := requireInitd s b (.next (if isZero s.scale then s.raise b .divisionByZero else s.beginFrame b))
      frameEnd := .next (finishWeight (s24 b.acc) s b) } := by
  simp only [ownSteps, h]

theorem ownSteps_getGain_answer (h : b.seg = 1) : ownSteps s b .getGain = answerSteps s b (zext64OfGain s.gain) := by
  simp only [ownSteps, h]

theorem ownSteps_setGain_store (h : b.seg = 0) (g : Nat) :
    ownSteps s b (.setGain g) = { start := requireInitd s b (.next (storeGain g s b)) } := by
  simp only [ownSteps, h]

theorem ownSteps_setGain_discard (h : b.seg = 2) (g : Nat) :
    ownSteps s b (.setGain g) = readSteps s b (s.respond b 0) := by
  simp only [ownSteps, h]

theorem ownSteps_getPd_answer (h : b.seg = 1 ∨ b.seg = 0 ∧ s.params.pdGetterWakes = false) :
    ownSteps s b .getPd = answerSteps s b (zext64OfBit s.pd) := by
  rcases h with h | ⟨h, hwakes⟩
  · simp only [ownSteps, h]
  · simp only [ownSteps, h, hwakes]
    rfl

/-! ## The segments that several commands have, with `INITD = 1` -/

theorem readSteps_start (h : s.initd = true) (finish : State) : (readSteps s b finish).start = .next (s.goto b .wait) :=
  requireInitd_of_initd _ h

theorem answerSteps_start (h : s.initd = true) (result : ResultWord) :
    (answerSteps s b result).start = .next (s.respond b result) :=
  requireInitd_of_initd _ h

theorem wakeSteps_start_refused (h : s.initd = true) (status : Status) :
    (wakeSteps s b (some status)).start = .next (s.raise b status) :=
  requireInitd_of_initd _ h

theorem wakeSteps_start_awake (h : s.initd = true) (hpd : s.pd = false) :
    (wakeSteps s b none).start = .next (s.endSegment b) := by
  simp [wakeSteps, requireInitd_of_initd _ h, hpd]

theorem wakeSteps_start_poweredDown (h : s.initd = true) (hpd : s.pd = true) :
    (wakeSteps s b none).start = .next ((s.sckWrite false).goto b .wait) := by
  simp [wakeSteps, requireInitd_of_initd _ h, hpd]

theorem collectSample_more {n : Nat} {x : Int} {finish : List Int → State} (h : b.samples.length + 1 < n) :
    collectSample n x s b finish = s.goto { b with samples := b.samples ++ [x] } .wait := by
  simp [collectSample, h]

theorem collectSample_last {n : Nat} {x : Int} {finish : List Int → State} (h : b.samples.length + 1 = n) :
    collectSample n x s b finish = finish (b.samples ++ [x]) := by
  simp [collectSample, h]

end Sys2Proof.Machine
end

section
/-! What each micro-step of a command does (40_bit_engine.md, 41_gain_power.md, 42_calibration.md, 43_lifecycle.md), read off the bit
engine's micro-step or the command's own steps. -/

namespace Sys2Proof.Machine

variable {s : State} {b : Busy}

/-! ## The bit engine -/

/-- Settles O15: every command asks the bit engine first (`exec_of_lineStep`). -/
theorem everyCommandSharesTheBitEngine : Obligations.EveryCommandSharesTheBitEngine :=
  fun i _ _ _ hb h => exec_of_lineStep hb h i

theorem lineStep_bitHigh {j : Fin 24} (h : b.pos = .bitHigh j) :
    lineStep s b = some ((s.sckWrite true).delayThen b s.params.tSckHigh (.bitLow j)) := by
  simp only [lineStep, h]

theorem lineStep_bitLow {j : Fin 24} (h : b.pos = .bitLow j) :
    lineStep s b = some ((s.sckWrite false).delayThen b s.params.tSckLow (.bitSample j)) := by
  simp only [lineStep, h]

theorem lineStep_bitSample {j : Fin 24} (h : b.pos = .bitSample j) : lineStep s b = some (bitSampleStep s b j) := by
  simp only [lineStep, h]

theorem bitSampleStep_laidOut {v : Level} {rest : List Level} (h : s.dout = v :: rest) (j : Fin 24) :
    bitSampleStep s b j = { s with dout := rest }.goto { b with acc := accumulate b.acc v } (afterBit s.gain j) := by
  rw [bitSampleStep, s.doutRead_laidOut _ _ h]

theorem lineStep_pulseHigh {n : Nat} (h : b.pos = .pulseHigh n) :
    lineStep s b = some ((s.sckWrite true).delayThen b s.params.tSckHigh (.pulseLow n)) := by
  simp only [lineStep, h]

theorem lineStep_pulseLow {n : Nat} (h : b.pos = .pulseLow n) :
    lineStep s b = some ((s.sckWrite false).delayThen b s.params.tSckLow (pulsePos (n - 1))) := by
  simp only [lineStep, h]

theorem lineStep_holdHigh (h : b.pos = .holdHigh) :
    lineStep s b = some ((s.sckWrite true).delayThen b s.params.tPdHold .holdEnd) := by
  simp only [lineStep, h]

theorem pulsePos_succ (n : Nat) : pulsePos (n + 1) = .pulseHigh (n + 1) := if_neg (Nat.succ_ne_zero n)

theorem afterBit_of_lt (gain : BitVec 8) {j : Fin 24} (h : j.val + 1 < 24) : afterBit gain j = .bitHigh ⟨j.val + 1, h⟩ :=
  dif_pos h

theorem afterBit_last (gain : BitVec 8) {j : Fin 24} (h : ¬ j.val + 1 < 24) : afterBit gain j = pulsePos (pulses gain) :=
  dif_neg h

theorem afterBit_of_gain {gain : BitVec 8} {j : Fin 24} {n : Nat} (hj : j.val = 23) (hn : pulses gain = n + 1) :
    afterBit gain j = .pulseHigh (n + 1) := by
  rw [afterBit_last _ (by omega), hn, pulsePos_succ]

/-- Settles O17: each clause is the bit engine's micro-step at its position; after bit 23 comes the gain's count of pulses. -/
theorem dataBitAndPulseMicroSteps : Obligations.DataBitAndPulseMicroSteps := by
  intro i s b hb
  refine ⟨fun j hpos => exec_of_lineStep hb (lineStep_bitHigh hpos) i,
    fun j hpos => exec_of_lineStep hb (lineStep_bitLow hpos) i, fun j v rest hpos hdout => ⟨afterBit s.gain j, ?_, ?_, ?_, ?_, ?_⟩,
    fun n hpos => exec_of_lineStep hb (lineStep_pulseHigh hpos) i, fun n hpos => exec_of_lineStep hb (lineStep_pulseLow hpos) i,
    fun hpos => exec_of_lineStep hb (lineStep_pulseLow hpos) i⟩
  · exact exec_of_lineStep hb ((lineStep_bitSample hpos).trans (congrArg some (bitSampleStep_laidOut hdout j))) i
  · exact fun h => afterBit_of_lt _ h
  · intro hj hgain
    exact afterBit_of_gain hj (by rw [hgain]; rfl)
  · intro hj hgain
    exact afterBit_of_gain hj (by rw [hgain]; rfl)
  · intro hj hgain
    exact afterBit_of_gain hj (by rw [hgain]; rfl)

/-! ## INIT and the lifecycle -/

theorem gainAccepted_iff (g : Nat) : gainAccepted g = true ↔ g = 128 ∨ g = 64 ∨ g = 32 := by
  simp [gainAccepted, or_assoc]

theorem gainAccepted_initGain_iff (g : Nat) : gainAccepted (initGain g) = true ↔ g = 0 ∨ g = 128 ∨ g = 64 ∨ g = 32 := by
  rw [gainAccepted_iff, initGain]
  split <;> omega

theorem beginInit_accepted {g : Nat} (h : gainAccepted g = true) :
    beginInit g s b = (s.sckWrite false).goto b .initDrive := if_pos h

theorem beginInit_refused {g : Nat} (h : ¬ gainAccepted g = true) : beginInit g s b = s.raise b .invalidArgument := if_neg h

/-- Settles O22: INIT has one segment, and its check stands before its first write. -/
theorem initEffect : Obligations.InitEffect := by
  intro g s b _ hb
  refine ⟨fun hpos h0 h128 h64 h32 => ?_, fun hpos hg => ?_, fun hpos => exec_initDrive hb hpos _, fun hpos => exec_frameEnd hb hpos _⟩
  · have hrefused : ¬ gainAccepted (initGain g) = true := by
      rw [gainAccepted_initGain_iff]
      omega
    exact (exec_start hb hpos _).trans (congrArg _ (beginInit_refused hrefused))
  · exact (exec_start hb hpos _).trans (congrArg _ (beginInit_accepted ((gainAccepted_initGain_iff g).mpr hg)))

/-- Settles O31: the first micro-step of every segment of these commands is the lifecycle test. -/
theorem uninitialisedSegmentFails : Obligations.UninitialisedSegmentFails := by
  intro i s b hi hb hpos hinitd
  rw [exec_start hb hpos]
  have hfails (go : Result) : requireInitd s b go = .next (s.raise b .notInitialized) := requireInitd_of_not_initd go hinitd
  cases i with
  | init g => exact absurd rfl (hi g)
  | setPd | cleanup => exact hfails _
  | tare | calibrate | getWeight | getGain =>
    rcases hseg : b.seg with _ | k <;> simp only [ownSteps, hseg] <;> exact hfails _
  | setGain =>
    rcases hseg : b.seg with _ | _ | k <;> simp only [ownSteps, hseg] <;> exact hfails _
  | getPd =>
    rcases hseg : b.seg with _ | k <;> simp only [ownSteps, hseg]
    · split <;> exact hfails _
    · exact hfails _

/-! ## SET_GAIN, the getters, SET_PD -/

theorem storeGain_refused {g : Nat} (h : ¬ gainAccepted g = true) : storeGain g s b = s.raise b .invalidArgument := by
  simp [storeGain, h]

theorem storeGain_same {g : Nat} (h : gainAccepted g = true) (hsame : gainPattern g = s.gain) :
    storeGain g s b = s.respond b 0 := by
  simp [storeGain, h, hsame]

theorem storeGain_new {g : Nat} (h : gainAccepted g = true) (hnew : gainPattern g ≠ s.gain) :
    storeGain g s b = { s with gain := gainPattern g }.endSegment b := by
  simp [storeGain, h, hnew]

/-- The first micro-step of SET_GAIN. -/
theorem exec_setGain_store (hb : s.seq = .busy b) (hinitd : s.initd = true) (hseg : b.seg = 0) (hpos : b.pos = .start) (g : Nat) :
    exec (.setGain g) s = .next (storeGain g s b) := by
  rw [exec_start hb hpos, ownSteps_setGain_store hseg]
  exact requireInitd_of_initd _ hinitd

/-- Settles O24: the store of the first segment has its three cases, and the last segment reads a frame. -/
theorem setGainEffect : Obligations.SetGainEffect := by
  intro g s b _ hb hinitd
  refine ⟨fun hseg hpos h128 h64 h32 => ?_, fun hseg hpos hg hsame => ?_, fun hseg hpos hg hnew cmd arg k hport => ?_,
    fun hseg hpos => ?_, fun hseg hpos => ?_⟩
  · have hrefused : ¬ gainAccepted g = true := by
      rw [gainAccepted_iff]
      omega
    rw [exec_setGain_store hb hinitd hseg hpos, storeGain_refused hrefused]
    rfl
  · rw [exec_setGain_store hb hinitd hseg hpos, storeGain_same ((gainAccepted_iff g).mpr hg) hsame.symm]
    rfl
  · rw [exec_setGain_store hb hinitd hseg hpos, storeGain_new ((gainAccepted_iff g).mpr hg) (Ne.symm hnew),
      State.endSegment_eq { s with gain := gainPattern g } b cmd arg k hport, hseg]
    rfl
  · rw [exec_start hb hpos, ownSteps_setGain_discard hseg, readSteps_start hinitd]
    rfl
  · rw [exec_frameEnd hb hpos, ownSteps_setGain_discard hseg]
    rfl

theorem zext64OfGain_eq (g : BitVec 8) : zext64OfGain g = BitVec.ofNat 64 g.toNat := by
  apply BitVec.eq_of_toNat_eq
  simp [zext64OfGain]

/-- Settles O25: both answering segments are `answerSteps`, after the lifecycle test. -/
theorem gettersAnswerTheirRegister : Obligations.GettersAnswerTheirRegister := by
  intro s b hb hpos hinitd
  refine ⟨fun hseg => ?_, fun hseg => ?_⟩
  · rw [exec_start hb hpos, ownSteps_getGain_answer hseg, answerSteps_start hinitd, zext64OfGain_eq]
    rfl
  · rw [exec_start hb hpos, ownSteps_getPd_answer hseg, answerSteps_start hinitd]
    rfl

theorem powerDownAsked_iff (v : Nat) : powerDownAsked v = true ↔ v = 1 := by
  simp [powerDownAsked]

theorem exec_setPd_start (hb : s.seq = .busy b) (hinitd : s.initd = true) (hpos : b.pos = .start) (v : Nat) :
    exec (.setPd v) s = .next (beginPowerTransition (powerDownAsked v) s b) :=
  (exec_start hb hpos _).trans (requireInitd_of_initd _ hinitd)

theorem beginPowerTransition_same : beginPowerTransition s.pd s b = s.respond b 0 := if_pos rfl

theorem beginPowerTransition_down (h : s.pd = false) :
    beginPowerTransition true s b = (s.sckWrite false).delayThen b s.params.tSckLow .holdHigh := by
  simp [beginPowerTransition, h]

theorem beginPowerTransition_wake (h : s.pd = true) :
    beginPowerTransition false s b = (s.sckWrite false).goto b .wait := by
  simp [beginPowerTransition, h]

/-- Settles O26: the power transition has its three cases, and the ends of the hold and of the frame write `PD`. -/
theorem setPdEffect : Obligations.SetPdEffect := by
  intro v s b _ hb hinitd
  refine ⟨fun hpos hsame => ?_, fun hpos hv hpd => ?_, fun hpos => exec_of_lineStep hb (lineStep_holdHigh hpos) _,
    fun hpos => exec_holdEnd hb hpos _, fun hpos hv hpd => ?_, fun hpos => exec_frameEnd hb hpos _⟩
  · have hasked : powerDownAsked v = s.pd := Bool.eq_iff_iff.mpr ((powerDownAsked_iff v).trans hsame)
    rw [exec_setPd_start hb hinitd hpos, hasked, beginPowerTransition_same]
    rfl
  · rw [exec_setPd_start hb hinitd hpos, hv, show powerDownAsked 1 = true from rfl, beginPowerTransition_down hpd]
    rfl
  · rw [exec_setPd_start hb hinitd hpos, hv, show powerDownAsked 0 = false from rfl, beginPowerTransition_wake hpd]
    rfl

/-! ## The auto-wake segment -/

theorem weightCheck_of_not_finite {w : F64} (h : isFinite w = false) : weightCheck w = some .invalidArgument := by
  have hexp : f64Exponent w = 2047 := by simpa [isFinite] using h
  simp [weightCheck, isNaN, isInf, hexp, em']

theorem not_isNaN_of_finite {w : F64} (h : isFinite w = true) : isNaN w = false ∧ isInf w = false := by
  have hexp : f64Exponent w ≠ 2047 := by simpa [isFinite] using h
  simp [isNaN, isInf, hexp]

theorem isFinite_of_isZero {w : F64} (h : isZero w = true) : isFinite w = true := by
  have hexp : f64Exponent w = 0 ∧ f64Fraction w = 0 := by simpa [isZero] using h
  simp [isFinite, hexp.1]

theorem weightCheck_of_zero {w : F64} (h : isZero w = true) : weightCheck w = some .divisionByZero := by
  obtain ⟨hnan, hinf⟩ := not_isNaN_of_finite (isFinite_of_isZero h)
  simp [weightCheck, hnan, hinf, h]

theorem weightCheck_of_valid {w : F64} (hfinite : isFinite w = true) (hzero : isZero w = false) : weightCheck w = none := by
  obtain ⟨hnan, hinf⟩ := not_isNaN_of_finite hfinite
  simp [weightCheck, hnan, hinf, hzero]

/-- The auto-wake segments of the commands that have one, CALIBRATE's with a weight it accepts. -/
theorem ownSteps_eq_wakeSteps {i : Instr} (h : (b.seg = 0 ∧ ((∃ n, i = .tare n) ∨ i = .getWeight ∨ i = .getGain ∨
        (∃ n w, i = .calibrate n w ∧ isFinite w = true ∧ isZero w = false) ∨
        (i = .getPd ∧ s.params.pdGetterWakes = true))) ∨ (b.seg = 1 ∧ ∃ g, i = .setGain g)) :
    ownSteps s b i = wakeSteps s b none := by
  rcases h with ⟨hseg, ⟨n, rfl⟩ | rfl | rfl | ⟨n, w, rfl, hfinite, hzero⟩ | ⟨rfl, hwakes⟩⟩ | ⟨hseg, g, rfl⟩
  · exact ownSteps_tare_wake hseg n
  · exact ownSteps_getWeight_wake hseg
  · exact ownSteps_getGain_wake hseg
  · rw [ownSteps_calibrate_wake hseg, weightCheck_of_valid hfinite hzero]
  · exact ownSteps_getPd_wake hseg hwakes
  · exact ownSteps_setGain_wake hseg g

/-- Settles O27: the six commands share `wakeSteps`. -/
theorem autoWakeSegmentEffect : Obligations.AutoWakeSegmentEffect := by
  intro i s b cmd arg k hb hinitd hport hwake
  have hsteps := ownSteps_eq_wakeSteps hwake
  refine ⟨fun hpos hpd => ?_, fun hpos hpd => ?_, fun hpos => ?_⟩
  · rw [exec_start hb hpos, hsteps, wakeSteps_start_awake hinitd hpd, State.endSegment_eq _ b cmd arg k hport]
    rfl
  · rw [exec_start hb hpos, hsteps, wakeSteps_start_poweredDown hinitd hpd]
    rfl
  · rw [exec_frameEnd hb hpos, hsteps]
    exact congrArg Host.Outcome.next (State.endSegment_eq { s with pd := false } b cmd arg k hport)

/-! ## TARE, CALIBRATE, GET_WEIGHT -/

/-- Settles O28: the sampling segment collects a frame, or finishes with the last. -/
theorem tareEffect : Obligations.TareEffect := by
  intro n s b _ hb hinitd hseg
  have hsteps := ownSteps_tare_sample (s := s) hseg n
  refine ⟨fun hpos => ?_, fun hpos hmore => ?_, fun hpos hlast o ho => ?_⟩
  · rw [exec_start hb hpos, hsteps, readSteps_start hinitd]
    rfl
  · rw [exec_frameEnd hb hpos, hsteps]
    exact congrArg _ (collectSample_more hmore)
  · rw [exec_frameEnd hb hpos, hsteps, ho]
    exact congrArg _ (collectSample_last hlast)

theorem finishCalibrate_finite {w : F64} {samples : List Int} (h : isFinite (fdiv (f64OfInt (median samples)) w) = true) :
    finishCalibrate w s b samples = { s with scale := fdiv (f64OfInt (median samples)) w }.respond b
      (fdiv (f64OfInt (median samples)) w) := if_pos h

theorem finishCalibrate_overflow {w : F64} {samples : List Int} (h : isFinite (fdiv (f64OfInt (median samples)) w) = false) :
    finishCalibrate w s b samples = s.raise b .overflow := by
  simp [finishCalibrate, h]

/-- Settles O29: as TARE, with the quotient finite or not. -/
theorem calibrateEffect : Obligations.CalibrateEffect := by
  intro n w s b _ hb hinitd hseg
  have hsteps := ownSteps_calibrate_sample (s := s) hseg n w
  refine ⟨fun hpos => ?_, fun hpos hmore => ?_, fun hpos hlast sc hsc => ⟨fun hfinite => ?_, fun hinfinite => ?_⟩⟩
  · rw [exec_start hb hpos, hsteps, readSteps_start hinitd]
    rfl
  · rw [exec_frameEnd hb hpos, hsteps]
    exact congrArg _ (collectSample_more hmore)
  · rw [hsc] at hfinite ⊢
    rw [exec_frameEnd hb hpos, hsteps]
    exact congrArg _ ((collectSample_last hlast).trans (finishCalibrate_finite hfinite))
  · rw [hsc] at hinfinite
    rw [exec_frameEnd hb hpos, hsteps]
    exact congrArg _ ((collectSample_last hlast).trans (finishCalibrate_overflow hinfinite))

/-- Settles O32: the weight is tested between the lifecycle test and the wake. -/
theorem calibrateChecksItsWeightFirst : Obligations.CalibrateChecksItsWeightFirst := by
  intro n w s b hb hseg hpos hinitd
  rw [exec_start hb hpos, ownSteps_calibrate_wake hseg]
  refine ⟨fun hinfinite => ?_, fun hzero => ?_⟩
  · rw [weightCheck_of_not_finite hinfinite, wakeSteps_start_refused hinitd]
    rfl
  · rw [weightCheck_of_zero hzero, wakeSteps_start_refused hinitd]
    rfl

theorem finishWeight_finite {raw : Int} (h : isFinite (fdiv (f64OfInt (raw - s.offset.toInt)) s.scale) = true) :
    finishWeight raw s b = s.respond b (fdiv (f64OfInt (raw - s.offset.toInt)) s.scale) := if_pos h

theorem finishWeight_overflow {raw : Int} (h : isFinite (fdiv (f64OfInt (raw - s.offset.toInt)) s.scale) = false) :
    finishWeight raw s b = s.raise b .overflow := by
  simp [finishWeight, h]

/-- The first micro-step of GET_WEIGHT's sampling segment. -/
theorem exec_getWeight_sample (hb : s.seq = .busy b) (hinitd : s.initd = true) (hseg : b.seg = 1) (hpos : b.pos = .start) :
    exec .getWeight s = .next (if isZero s.scale then s.raise b .divisionByZero else s.goto b .wait) := by
  rw [exec_start hb hpos, ownSteps_getWeight_sample hseg]
  exact requireInitd_of_initd _ hinitd

/-- Settles O30: the scale is tested before the frame, and the quotient after it. -/
theorem getWeightEffect : Obligations.GetWeightEffect := by
  intro s b hb hinitd hseg
  refine ⟨fun hpos hzero => ?_, fun hpos hzero => ?_, fun hpos wt hwt => ⟨fun hfinite => ?_, fun hinfinite => ?_⟩⟩
  · rw [exec_getWeight_sample hb hinitd hseg hpos, hzero]
    rfl
  · rw [exec_getWeight_sample hb hinitd hseg hpos, hzero]
    rfl
  · rw [hwt] at hfinite ⊢
    rw [exec_frameEnd hb hpos, ownSteps_getWeight_sample hseg]
    exact congrArg _ (finishWeight_finite hfinite)
  · rw [hwt] at hinfinite
    rw [exec_frameEnd hb hpos, ownSteps_getWeight_sample hseg]
    exact congrArg _ (finishWeight_overflow hinfinite)

end Sys2Proof.Machine
end

section
/-! The step: the host's edge, the arbiter's grant, and the command's micro-step (20_memory.md). -/

namespace Sys2Proof.Machine

variable {s : State} {b : Busy}

/-! ## The edge -/

theorem State.clock_of_edge {e : Edge} {rest : List Edge} (hin : s.inputs = e :: rest) (hrst : e.rst = false) :
    s.clock = if e.stall then .held (s.afterPins e.pins rest) else .free (s.afterPins e.pins rest) := by
  simp [State.clock, State.afterPins, hin, hrst]

theorem step_of_held {t : State} (h : s.clock = .held t) : step s = .next t := by
  simp only [step, clockedStep, h]

theorem step_of_free {t : State} (h : s.clock = .free t) : step s = engineStep t := by
  simp only [step, clockedStep, h]

theorem State.clock_of_reset {e : Edge} {rest : List Edge} (hin : s.inputs = e :: rest) (hrst : e.rst = true) :
    s.clock = .held ({ s with inputs := rest }.resetEvent) := by
  simp [State.clock, hin, hrst]

/-- Settles O42: reset is sampled before the pins, and the step is nothing else. -/
theorem resetDropsEverything : Obligations.ResetDropsEverything := by
  intro s e rest hin hrst
  exact ⟨_, step_of_held (State.clock_of_reset hin hrst), rfl, rfl, rfl, rfl, rfl⟩

/-- A port at an edge with these pins. -/
theorem clockPorts_of_pin {pins : List PortPins} {ports : List Port} {p : Nat} {pin : PortPins} {port : Port}
    (hpin : pins[p]? = some pin) (hport : ports[p]? = some port) :
    (clockPorts pins ports)[p]? = some (clockPort pin port) := by
  rw [clockPorts_getElem?, hpin, hport]

theorem clockPorts_of_no_pin {pins : List PortPins} {ports : List Port} {p : Nat} (hpin : pins[p]? = none) :
    (clockPorts pins ports)[p]? = ports[p]? := by
  rw [clockPorts_getElem?, hpin]
  cases ports[p]? <;> rfl

/-- Settles O40: the edge is `State.afterPins`, where each port with pins makes its move of the handshake (`clockPort`). -/
theorem portsFollowTheHandshake : Obligations.PortsFollowTheHandshake := by
  intro s e rest hin hrst
  have hclock := State.clock_of_edge hin hrst
  refine ⟨s.afterPins e.pins rest, hclock, fun hstall => step_of_held (by rw [hclock, if_pos hstall]), rfl, rfl, rfl,
    clockPorts_length _ _, fun p hpin => clockPorts_of_no_pin hpin, fun p pins hpin => ?_⟩
  refine ⟨fun hport hvalid => ?_, fun hport hvalid => ?_, fun status result hport hready => ?_,
    fun status result hport hready => ?_, fun cmd arg k hport => clockPorts_pending hport⟩
  · exact (clockPorts_of_pin hpin hport).trans (by simp [clockPort, hvalid])
  · exact (clockPorts_of_pin hpin hport).trans (by simp [clockPort, hvalid])
  · exact (clockPorts_of_pin hpin hport).trans (by simp [clockPort, hready])
  · exact (clockPorts_of_pin hpin hport).trans (by simp [clockPort, hready])

/-! ## The signals -/

theorem response_eq_some {p : Nat} {code : BitVec 4} {result : ResultWord} (h : response s p = some (code, result)) :
    ∃ status : Status, status.code = code := by
  unfold response at h
  split at h
  · next status result' _ => exact ⟨status, congrArg Prod.fst (Option.some.inj h)⟩
  all_goals cases h

theorem Status.code_le (status : Status) : status.code.toNat ≤ 5 := by
  cases status <;> decide

/-- Settles O35: a response shows the code of its status, and each status has one of the six. -/
theorem statusCodesAreTheTable : Obligations.StatusCodesAreTheTable := by
  refine ⟨rfl, rfl, rfl, rfl, rfl, rfl, fun s p code result h => ?_⟩
  obtain ⟨status, rfl⟩ := response_eq_some h
  exact status.code_le

theorem response_of_done {p : Nat} {status : Status} {result : ResultWord} (h : s.ports[p]? = some (.done status result)) :
    response s p = some (status.code, result) := by
  simp only [response, h]

/-- Settles O41: the signals are read off the port's state. -/
theorem portSignalsShowThePortState : Obligations.PortSignalsShowThePortState := by
  intro s p
  refine ⟨beq_iff_eq, ?_, fun status result => response_of_done, rfl, rfl⟩
  constructor
  · intro hvalid
    unfold rspValid response at hvalid
    split at hvalid
    · next status result hport => exact ⟨status, result, hport⟩
    all_goals cases hvalid
  · rintro ⟨status, result, hport⟩
    simp [rspValid, response_of_done hport]

/-! ## The step and the decoded command -/

theorem runMicroStep_of_ok {cmd : CmdWord} {arg : ArgWord} {k : Nat} {i : Instr}
    (hport : s.ports[b.port]? = some (.pending cmd arg k)) (hdec : decode cmd arg = .ok i) :
    runMicroStep s b = exec i s := by
  simp only [runMicroStep, hport, hdec]

theorem engineStep_delaying (hb : s.seq = .busy b) (h : b.delaying = true) : engineStep s = .next (s.tick b) := by
  simp [engineStep, hb, h]

theorem engineStep_busy (hb : s.seq = .busy b) (h : b.delaying = false) : engineStep s = runMicroStep s b := by
  simp [engineStep, hb, h]

theorem engineStep_grant {s' : State} (hidle : s.seq = .idle) (hgrant : s.grant = some (s', b)) :
    engineStep s = runMicroStep s' b := by
  simp [engineStep, hidle, hgrant]

theorem engineStep_wait (hidle : s.seq = .idle) (hgrant : s.grant = none) : engineStep s = .next s := by
  simp [engineStep, hidle, hgrant]

/-- Settles O38: after an edge that leaves the engine free, the step is the engine's, and the engine runs the command that the
port's word decodes to. -/
theorem stepRunsTheDecodedCommand : Obligations.StepRunsTheDecodedCommand := by
  intro s s1 cmd arg k i hedge hdec
  have hfree : s.clock = .free s1 := by
    rcases hedge with ⟨hin, rfl⟩ | ⟨e, rest, hin, hrst, hstall, rfl⟩
    · exact State.clock_quiet hin
    · rw [State.clock_of_edge hin hrst, hstall]
      rfl
  rw [step_of_free hfree]
  refine ⟨fun b hb hdelay hport => ?_, fun s' b hidle hgrant hport => ?_, fun b hb hdelay => engineStep_delaying hb hdelay⟩
  · rw [engineStep_busy hb hdelay, runMicroStep_of_ok hport hdec]
  · rw [engineStep_grant hidle hgrant, runMicroStep_of_ok hport hdec]

/-! ## The grant -/

theorem chosenPort_isSome {ps : List Nat} (h : ps ≠ []) (c : Nat) : ∃ p, chosenPort c ps = some p := by
  match ps, h with
  | [p], _ => exact ⟨p, rfl⟩
  | p :: q :: rest, _ =>
    have hlt : c % (rest.length + 2) < (p :: q :: rest).length := Nat.mod_lt _ (Nat.succ_pos _)
    exact ⟨_, List.getElem?_eq_getElem hlt⟩

/-- Each port in the list is named by some choice: its index. -/
theorem exists_choice_of_mem {ps : List Nat} {p : Nat} (h : p ∈ ps) : ∃ c, chosenPort c ps = some p := by
  obtain ⟨c, hlt, hc⟩ := List.getElem_of_mem h
  match ps, hlt with
  | [q], hlt =>
    obtain rfl : q = p := (List.mem_singleton.mp h).symm
    exact ⟨0, rfl⟩
  | q :: r :: rest, hlt =>
    refine ⟨c, ?_⟩
    have hmod : c % (rest.length + 2) = c := Nat.mod_eq_of_lt hlt
    rw [chosenPort, hmod, List.getElem?_eq_getElem hlt, hc]

theorem State.grant_of_choice {c p : Nat} {s' : State} (hdraw : s.drawGrant = (c, s'))
    (hchosen : chosenPort c s.pendingPorts = some p) : s.grant = some (s'.setBusy (s'.granted p), s'.granted p) := by
  unfold State.grant
  split
  · next hnone => simp [hnone, chosenPort] at hchosen
  · next => simp [hdraw, hchosen]

theorem State.grant_of_pending (h : s.pendingPorts ≠ []) : ∃ s' b, s.grant = some (s', b) := by
  obtain ⟨p, hp⟩ := chosenPort_isSome h s.drawGrant.1
  exact ⟨_, _, State.grant_of_choice rfl hp⟩

theorem State.grant_of_none_pending (h : s.pendingPorts = []) : s.grant = none := by
  simp [State.grant, h]

theorem State.pendingPorts_eq_nil (h : ∀ (p : Nat) (cmd : CmdWord) (arg : ArgWord) (k : Nat), s.ports[p]? ≠ some (.pending cmd arg k)) :
    s.pendingPorts = [] := by
  refine List.eq_nil_iff_forall_not_mem.mpr fun p hp => ?_
  obtain ⟨cmd, arg, k, hport⟩ := State.mem_pendingPorts.mp hp
  exact h p cmd arg k hport

/-- Settles O39: the grant goes to the pending port that the choice names, and a port's index in the list of pending ports names it. -/
theorem arbiterMayChooseEveryPendingPort : Obligations.ArbiterMayChooseEveryPendingPort := by
  intro s
  refine ⟨State.grant_of_pending, fun p => State.mem_pendingPorts, fun s' b hgrant => ?_, fun p cmd arg k hport => ?_,
    fun hnone hidle hin => ?_⟩
  · obtain ⟨cmd, arg, rest, n, hport, hpos, -, -, hsamples, rfl⟩ := State.grant_spec hgrant
    exact ⟨cmd, arg, hport, hpos, hsamples, rfl, rfl, rfl⟩
  · obtain ⟨c, hc⟩ := exists_choice_of_mem (State.mem_pendingPorts.mpr ⟨cmd, arg, k, hport⟩)
    exact ⟨c, _, _, State.grant_of_choice (s := { s with grants := c :: s.grants }) (s' := s) rfl hc, rfl⟩
  · rw [step_quiet hin, engineStep_wait hidle (State.grant_of_none_pending (State.pendingPorts_eq_nil hnone))]

end Sys2Proof.Machine
end

section
/-! Everything a command's own micro-step can do, with the registers it writes and the kind of segment it belongs to (`OwnStep`):
the inversion of `exec` from which the frames and the invariants are read off. -/

namespace Sys2Proof.Machine

variable {s t : State} {b : Busy} {i : Instr}

/-! ## The kind of the segment in progress -/

/-- The kind of the segment that a command runs at an index; from its last one on it runs the last. -/
def kindAt (pdGetterWakes : Bool) : Instr → Nat → SegmentKind
  | .init _, _ => .construct
  | .tare _, 0 | .calibrate _ _, 0 | .getWeight, 0 | .getGain, 0 => .wake
  | .tare n, _ + 1 | .calibrate n _, _ + 1 => .sample (sampleCount n)
  | .getWeight, _ + 1 => .sample 1
  | .getGain, _ + 1 => .answer
  | .setGain _, 0 => .store
  | .setGain _, 1 => .wake
  | .setGain _, _ + 2 => .discard
  | .getPd, 0 => if pdGetterWakes then .wake else .answer
  | .getPd, _ + 1 => .answer
  | .setPd _, _ => .power
  | .cleanup, _ => .teardown

theorem kindAt_of_segmentKinds {w : Bool} {k : Nat} {kind : SegmentKind} (h : (segmentKinds w i)[k]? = some kind) :
    kindAt w i k = kind := by
  cases i with
  | init | setPd | cleanup =>
    rcases k with _ | k <;> simp_all [segmentKinds, kindAt]
  | tare | calibrate | getWeight | getGain =>
    rcases k with _ | _ | k <;> simp_all [segmentKinds, kindAt]
  | setGain =>
    rcases k with _ | _ | _ | k <;> simp_all [segmentKinds, kindAt]
  | getPd =>
    cases w <;> rcases k with _ | _ | k <;> simp_all [segmentKinds, kindAt]

/-- The segments that are not their command's last are in its list, and another follows them. -/
theorem segmentKinds_of_kindAt {w : Bool} {k : Nat} (h : kindAt w i k = .wake ∨ kindAt w i k = .store) :
    (segmentKinds w i)[k]? = some (kindAt w i k) ∧ k + 1 < (segmentKinds w i).length := by
  cases i with
  | init | setPd | cleanup => simp [kindAt] at h
  | tare | calibrate | getWeight | getGain =>
    rcases k with _ | k <;> simp_all [segmentKinds, kindAt]
  | setGain =>
    rcases k with _ | _ | k <;> simp_all [segmentKinds, kindAt]
  | getPd =>
    cases w <;> rcases k with _ | k <;> simp_all [segmentKinds, kindAt]

theorem sampleCount_pos (n : Nat) : 0 < sampleCount n := by
  unfold sampleCount
  split <;> omega

theorem pos_of_kindAt_sample {w : Bool} {k n : Nat} (h : kindAt w i k = .sample n) : 0 < n := by
  cases i with
  | init | setPd | cleanup => cases h
  | tare m | calibrate m =>
    rcases k with _ | k <;> cases h
    exact sampleCount_pos m
  | getWeight =>
    rcases k with _ | k <;> cases h
    exact Nat.one_pos
  | getGain => rcases k with _ | k <;> cases h
  | setGain => rcases k with _ | _ | k <;> cases h
  | getPd => cases w <;> rcases k with _ | k <;> cases h

/-! ## The inversion -/

/-- What a micro-step of the command's own can do, by the kind of its segment and its position in it. -/
inductive OwnStep (s : State) (b : Busy) : Instr → State → Prop where
  /-- The lifecycle test or a check of an operand or of `SCALE` fails. -/
  | refuses (i : Instr) (hpos : b.pos = .start) (status : Status) : OwnStep s b i (s.raise b status)
  /-- The quotient is not finite. -/
  | overflows (i : Instr) (n : Nat) (hkind : kindAt s.params.pdGetterWakes i b.seg = .sample n) (hpos : b.pos = .frameEnd) :
      OwnStep s b i (s.raise b .overflow)
  /-- An answer with no frame. -/
  | answers (i : Instr) (hpos : b.pos = .start) (hinitd : s.initd = true) (result : ResultWord) : OwnStep s b i (s.respond b result)
  /-- An answer after a frame, with nothing written. -/
  | finishes (i : Instr) (hkind : (kindAt s.params.pdGetterWakes i b.seg).wakes = false) (hpos : b.pos = .frameEnd)
      (result : ResultWord) : OwnStep s b i (s.respond b result)
  | initBegins (g : Nat) (hpos : b.pos = .start) (hgain : gainAccepted (initGain g) = true) :
      OwnStep s b (.init g) ((s.sckWrite false).goto b .initDrive)
  | initWrites (g : Nat) (hpos : b.pos = .initDrive) : OwnStep s b (.init g) ((initRegisters (initGain g) s).goto b .wait)
  | wakeEnds (i : Instr) (hkind : kindAt s.params.pdGetterWakes i b.seg = .wake) (hpos : b.pos = .start) (hinitd : s.initd = true)
      (hpd : s.pd = false) : OwnStep s b i (s.endSegment b)
  | wakeBegins (i : Instr) (hkind : kindAt s.params.pdGetterWakes i b.seg = .wake) (hpos : b.pos = .start) (hinitd : s.initd = true)
      (hpd : s.pd = true) : OwnStep s b i ((s.sckWrite false).goto b .wait)
  | wakes (i : Instr) (hkind : kindAt s.params.pdGetterWakes i b.seg = .wake) (hpos : b.pos = .frameEnd) :
      OwnStep s b i ({ s with pd := false }.endSegment b)
  | stores (g : Nat) (hkind : kindAt s.params.pdGetterWakes (.setGain g) b.seg = .store) (hpos : b.pos = .start)
      (hinitd : s.initd = true) (hgain : gainAccepted g = true) :
      OwnStep s b (.setGain g) ({ s with gain := gainPattern g }.endSegment b)
  | reads (i : Instr) (hkind : (kindAt s.params.pdGetterWakes i b.seg).awake = true) (hpos : b.pos = .start)
      (hinitd : s.initd = true) : OwnStep s b i (s.goto b .wait)
  | samples (i : Instr) (n : Nat) (x : Int) (hkind : kindAt s.params.pdGetterWakes i b.seg = .sample n)
      (hpos : b.pos = .frameEnd) (hmore : b.samples.length + 1 < n) (hx : sampleInRange i x) :
      OwnStep s b i (s.goto { b with samples := b.samples ++ [x] } .wait)
  | tares (n m : Nat) (hkind : kindAt s.params.pdGetterWakes (.tare n) b.seg = .sample m) (hpos : b.pos = .frameEnd)
      (offset : BitVec 24) (result : ResultWord) : OwnStep s b (.tare n) ({ s with offset := offset }.respond b result)
  | calibrates (n m : Nat) (w sc : F64) (hkind : kindAt s.params.pdGetterWakes (.calibrate n w) b.seg = .sample m)
      (hpos : b.pos = .frameEnd) (hfinite : isFinite sc = true) :
      OwnStep s b (.calibrate n w) ({ s with scale := sc }.respond b sc)
  | powersDown (v : Nat) (hpos : b.pos = .start) (hinitd : s.initd = true) (hpd : s.pd = false) :
      OwnStep s b (.setPd v) ((s.sckWrite false).delayThen b s.params.tSckLow .holdHigh)
  | powerDown (v : Nat) (hpos : b.pos = .holdEnd) : OwnStep s b (.setPd v) ({ s with pd := true }.respond b 0)
  | powersUp (v : Nat) (hpos : b.pos = .start) (hinitd : s.initd = true) (hpd : s.pd = true) :
      OwnStep s b (.setPd v) ((s.sckWrite false).goto b .wait)
  | powerUp (v : Nat) (hpos : b.pos = .frameEnd) : OwnStep s b (.setPd v) ({ s with pd := false }.respond b 0)
  | cleansUp (hpos : b.pos = .start) (hinitd : s.initd = true) :
      OwnStep s b .cleanup ({ s with sckOe := false, sck := false, initd := false }.respond b 0)

/-- Every micro-step at the segment's own positions is one of `OwnStep`. -/
structure Described (s : State) (b : Busy) (i : Instr) (own : SegmentSteps) : Prop where
  start : ∀ t, b.pos = .start → own.start = .next t → OwnStep s b i t
  initDrive : ∀ t, b.pos = .initDrive → own.initDrive = .next t → OwnStep s b i t
  frameEnd : ∀ t, b.pos = .frameEnd → own.frameEnd = .next t → OwnStep s b i t
  holdEnd : ∀ t, b.pos = .holdEnd → own.holdEnd = .next t → OwnStep s b i t

theorem ownStep_of_requireInitd {go : Result} (hpos : b.pos = .start) (h : requireInitd s b go = .next t)
    (hgo : s.initd = true → go = .next t → OwnStep s b i t) : OwnStep s b i t := by
  rcases requireInitd_cases h with ⟨hinitd, hnext⟩ | ⟨-, hnext⟩
  · exact hgo hinitd hnext.symm
  · cases hnext
    exact .refuses i hpos _

theorem described_wakeSteps (hkind : kindAt s.params.pdGetterWakes i b.seg = .wake) (check : Option Status) :
    Described s b i (wakeSteps s b check) where
  start t hpos h := by
    refine ownStep_of_requireInitd hpos h fun hinitd h => ?_
    cases check with
    | some status =>
      cases h
      exact .refuses i hpos status
    | none =>
      cases hpd : s.pd <;> simp only [hpd, Bool.false_eq_true, if_false, if_true] at h <;> cases h
      · exact .wakeEnds i hkind hpos hinitd hpd
      · exact .wakeBegins i hkind hpos hinitd hpd
  initDrive := fun _ _ h => nomatch h
  frameEnd t hpos h := by
    cases h
    exact .wakes i hkind hpos
  holdEnd := fun _ _ h => nomatch h

/-- A segment of one micro-step, which begins with the lifecycle test. -/
theorem described_one_step {u : State} (hu : b.pos = .start → s.initd = true → OwnStep s b i u) :
    Described s b i { start := requireInitd s b (.next u) } where
  start t hpos h := by
    refine ownStep_of_requireInitd hpos h fun hinitd h => ?_
    cases h
    exact hu hpos hinitd
  initDrive := fun _ _ h => nomatch h
  frameEnd := fun _ _ h => nomatch h
  holdEnd := fun _ _ h => nomatch h

theorem described_answerSteps (result : ResultWord) : Described s b i (answerSteps s b result) :=
  described_one_step fun hpos hinitd => .answers i hpos hinitd result

theorem described_readSteps (hkind : (kindAt s.params.pdGetterWakes i b.seg).awake = true) {finish : State}
    (hfinish : b.pos = .frameEnd → OwnStep s b i finish) : Described s b i (readSteps s b finish) where
  start t hpos h := by
    refine ownStep_of_requireInitd hpos h fun hinitd h => ?_
    cases h
    exact .reads i hkind hpos hinitd
  initDrive := fun _ _ h => nomatch h
  frameEnd t hpos h := by
    cases h
    exact hfinish hpos
  holdEnd := fun _ _ h => nomatch h

theorem ownStep_collectSample {n : Nat} {x : Int} {finish : List Int → State}
    (hkind : kindAt s.params.pdGetterWakes i b.seg = .sample n) (hpos : b.pos = .frameEnd) (hx : sampleInRange i x)
    (hfinish : ∀ l, OwnStep s b i (finish l)) : OwnStep s b i (collectSample n x s b finish) := by
  by_cases hmore : b.samples.length + 1 < n
  · rw [collectSample_more hmore]
    exact .samples i n x hkind hpos hmore hx
  · simp only [collectSample, List.length_append, List.length_singleton, if_neg hmore]
    exact hfinish _

theorem ownStep_finishCalibrate {n m : Nat} {w : F64} (hkind : kindAt s.params.pdGetterWakes (.calibrate n w) b.seg = .sample m)
    (hpos : b.pos = .frameEnd) (l : List Int) : OwnStep s b (.calibrate n w) (finishCalibrate w s b l) := by
  cases hfinite : isFinite (fdiv (f64OfInt (median l)) w)
  · rw [finishCalibrate_overflow hfinite]
    exact .overflows _ m hkind hpos
  · rw [finishCalibrate_finite hfinite]
    exact .calibrates n m w _ hkind hpos hfinite

theorem ownStep_finishWeight {n : Nat} (hkind : kindAt s.params.pdGetterWakes i b.seg = .sample n) (hpos : b.pos = .frameEnd)
    (raw : Int) : OwnStep s b i (finishWeight raw s b) := by
  cases hfinite : isFinite (fdiv (f64OfInt (raw - s.offset.toInt)) s.scale)
  · rw [finishWeight_overflow hfinite]
    exact .overflows i n hkind hpos
  · rw [finishWeight_finite hfinite]
    exact .finishes i (by rw [hkind]; rfl) hpos _

theorem ownStep_storeGain {g : Nat} (hkind : kindAt s.params.pdGetterWakes (.setGain g) b.seg = .store) (hpos : b.pos = .start)
    (hinitd : s.initd = true) : OwnStep s b (.setGain g) (storeGain g s b) := by
  by_cases hgain : gainAccepted g = true
  · by_cases hsame : gainPattern g = s.gain
    · rw [storeGain_same hgain hsame]
      exact .answers _ hpos hinitd 0
    · rw [storeGain_new hgain hsame]
      exact .stores g hkind hpos hinitd hgain
  · rw [storeGain_refused hgain]
    exact .refuses _ hpos _

theorem ownStep_beginPowerTransition (v : Nat) (hpos : b.pos = .start) (hinitd : s.initd = true) (asked : Bool) :
    OwnStep s b (.setPd v) (beginPowerTransition asked s b) := by
  cases hpd : s.pd <;> cases asked
  · exact hpd ▸ beginPowerTransition_same (s := s) ▸ .answers _ hpos hinitd 0
  · exact beginPowerTransition_down hpd ▸ .powersDown v hpos hinitd hpd
  · exact beginPowerTransition_wake hpd ▸ .powersUp v hpos hinitd hpd
  · exact hpd ▸ beginPowerTransition_same (s := s) ▸ .answers _ hpos hinitd 0

/-- A sample of TARE is a decoded frame, one of CALIBRATE an adjusted frame (42_calibration.md R176). -/
theorem sampleInRange_tare (n : Nat) (p : FramePattern) : sampleInRange (.tare n) (s24 p) := s24_range p

theorem sampleInRange_calibrate (n : Nat) (w : F64) (p : FramePattern) (o : BitVec 24) :
    sampleInRange (.calibrate n w) (s24 p - o.toInt) := by
  have hframe := s24_range p
  have hoffset := s24_range o
  rw [s24_eq_toInt o] at hoffset
  simp only [sampleInRange]
  omega

theorem described_ownSteps (s : State) (b : Busy) (i : Instr) : Described s b i (ownSteps s b i) := by
  cases i with
  | init g =>
    refine ⟨fun t hpos h => ?_, fun t hpos h => ?_, fun t hpos h => ?_, fun _ _ h => nomatch h⟩ <;> cases h
    · by_cases hgain : gainAccepted (initGain g) = true
      · rw [beginInit_accepted hgain]
        exact .initBegins g hpos hgain
      · rw [beginInit_refused hgain]
        exact .refuses _ hpos _
    · exact .initWrites g hpos
    · exact .finishes _ rfl hpos 0
  | tare n =>
    rcases hseg : b.seg with _ | k <;> simp only [ownSteps, hseg]
    · exact described_wakeSteps (by rw [hseg]; rfl) none
    · have hkind : kindAt s.params.pdGetterWakes (.tare n) b.seg = .sample (sampleCount n) := by rw [hseg]; rfl
      exact described_readSteps (by rw [hkind]; rfl) fun hpos =>
        ownStep_collectSample hkind hpos (sampleInRange_tare n b.acc) fun l => .tares n _ hkind hpos _ _
  | calibrate n w =>
    rcases hseg : b.seg with _ | k <;> simp only [ownSteps, hseg]
    · exact described_wakeSteps (by rw [hseg]; rfl) (weightCheck w)
    · have hkind : kindAt s.params.pdGetterWakes (.calibrate n w) b.seg = .sample (sampleCount n) := by rw [hseg]; rfl
      exact described_readSteps (by rw [hkind]; rfl) fun hpos =>
        ownStep_collectSample hkind hpos (sampleInRange_calibrate n w b.acc s.offset) (ownStep_finishCalibrate hkind hpos)
  | getWeight =>
    rcases hseg : b.seg with _ | k <;> simp only [ownSteps, hseg]
    · exact described_wakeSteps (by rw [hseg]; rfl) none
    · have hkind : kindAt s.params.pdGetterWakes .getWeight b.seg = .sample 1 := by rw [hseg]; rfl
      refine ⟨fun t hpos h => ownStep_of_requireInitd hpos h fun hinitd h => ?_,
        (fun _ _ h => nomatch h), fun t hpos h => ?_, fun _ _ h => nomatch h⟩
      · cases h
        split
        · exact .refuses _ hpos _
        · exact .reads _ (by rw [hkind]; rfl) hpos hinitd
      · cases h
        exact ownStep_finishWeight hkind hpos _
  | getGain =>
    rcases hseg : b.seg with _ | k <;> simp only [ownSteps, hseg]
    · exact described_wakeSteps (by rw [hseg]; rfl) none
    · exact described_answerSteps _
  | setGain g =>
    rcases hseg : b.seg with _ | _ | k <;> simp only [ownSteps, hseg]
    · exact described_one_step (ownStep_storeGain (by rw [hseg]; rfl))
    · exact described_wakeSteps (by rw [hseg]; rfl) none
    · exact described_readSteps (by rw [hseg]; rfl) fun hpos => .finishes _ (by rw [hseg]; rfl) hpos 0
  | getPd =>
    rcases hseg : b.seg with _ | k <;> simp only [ownSteps, hseg]
    · cases hwakes : s.params.pdGetterWakes
      · exact described_answerSteps _
      · exact described_wakeSteps (by rw [hseg, hwakes]; rfl) none
    · exact described_answerSteps _
  | setPd v =>
    refine ⟨fun t hpos h => ownStep_of_requireInitd hpos h fun hinitd h => ?_,
        (fun _ _ h => nomatch h), fun t hpos h => ?_, fun t hpos h => ?_⟩ <;>
      cases h
    · exact ownStep_beginPowerTransition v hpos hinitd _
    · exact .powerUp v hpos
    · exact .powerDown v hpos
  | cleanup =>
    exact described_one_step .cleansUp

/-- A micro-step of a command is the bit engine's, or one of its own. -/
theorem exec_cases (hb : s.seq = .busy b) (h : exec i s = .next t) : lineStep s b = some t ∨ OwnStep s b i t := by
  have hown := described_ownSteps s b i
  rw [exec_eq_segmentStep hb] at h
  rcases segmentStep_cases h with ⟨u, hline, hnext⟩ | ⟨hpos, hnext⟩ | ⟨hpos, hnext⟩ | ⟨hpos, hnext⟩ | ⟨hpos, hnext⟩
  · cases hnext
    exact .inl hline
  · exact .inr (hown.start t hpos hnext.symm)
  · exact .inr (hown.initDrive t hpos hnext.symm)
  · exact .inr (hown.frameEnd t hpos hnext.symm)
  · exact .inr (hown.holdEnd t hpos hnext.symm)

end Sys2Proof.Machine
end

section
/-! Frames (10_state.md, 20_memory.md R55, 60_exceptions.md R231): what no micro-step of a command changes. -/

namespace Sys2Proof.Machine

variable {s t : State} {b : Busy} {i : Instr}

/-! ## The port of the segment -/

theorem getElem?_set_same {ports : List Port} {p : Nat} {port port' : Port} (h : ports[p]? = some port) :
    (ports.set p port')[p]? = some port' := by
  rw [List.getElem?_set_self (List.getElem?_eq_some_iff.mp h).1]

/-- Settles O34: only two effects leave a response, and the one that is no error has status OK. -/
theorem errorWritesNothing : Obligations.ErrorWritesNothing := by
  intro i s t b cmd arg k status result hb hport h hdone hstatus
  rcases exec_effect hb h with hline | hown
  · obtain ⟨-, -, -, -, -, -, hports, -⟩ := lineStep_frame hline
    rw [hports, hport] at hdone
    cases hdone
  · cases hown with
    | error st =>
      have hset := (getElem?_set_same (port' := .done st 0) hport).symm.trans hdone
      cases hset
      exact ⟨rfl, rfl⟩
    | answer s' hsame r =>
      rw [State.respond_ports, hsame.ports] at hdone
      have hset := (getElem?_set_same (port' := .done .ok r) hport).symm.trans hdone
      cases hset
      exact absurd rfl hstatus
    | segment s' hsame =>
      rw [State.endSegment_eq s' b cmd arg k (hsame.ports ▸ hport), State.release_ports, hsame.ports, getElem?_set_same hport] at hdone
      cases hdone
    | goesOn s' hsame samples p =>
      rw [State.goto_ports, hsame.ports, hport] at hdone
      cases hdone
    | delays s' hsame n p =>
      rw [State.delayThen_ports, hsame.ports, hport] at hdone
      cases hdone

/-- A micro-step leaves the parameters, the host's inputs and the arbiter's choices as they are. -/
theorem exec_environment (hb : s.seq = .busy b) (h : exec i s = .next t) :
    t.params = s.params ∧ t.inputs = s.inputs ∧ t.grants = s.grants := by
  rcases exec_effect hb h with hline | hown
  · obtain ⟨-, -, -, -, -, -, -, hparams, hinputs, hgrants, -⟩ := lineStep_frame hline
    exact ⟨hparams, hinputs, hgrants⟩
  · cases hown with
    | error st => exact ⟨rfl, rfl, rfl⟩
    | answer s' hsame | goesOn s' hsame | delays s' hsame => exact ⟨hsame.params, hsame.inputs, hsame.grants⟩
    | segment s' hsame =>
      rw [State.endSegment_params, State.endSegment_inputs, State.endSegment_grants]
      exact ⟨hsame.params, hsame.inputs, hsame.grants⟩

/-- What a micro-step makes of the ports and the sequencer: the segment goes on, or it ends with one change to its port. -/
theorem exec_ports {cmd : CmdWord} {arg : ArgWord} {k : Nat} (hb : s.seq = .busy b)
    (hport : s.ports[b.port]? = some (.pending cmd arg k)) (h : exec i s = .next t) :
    (t.ports = s.ports ∧ ∃ b', t.seq = .busy b' ∧ b'.port = b.port ∧ b'.seg = b.seg) ∨
    (t.seq = .idle ∧ (t.ports = s.ports.set b.port (.pending cmd arg (b.seg + 1)) ∨
      ∃ status result, t.ports = s.ports.set b.port (.done status result))) := by
  rcases exec_effect hb h with hline | hown
  · obtain ⟨-, -, -, -, -, -, hports, -, -, -, p, d, acc, hseq⟩ := lineStep_frame hline
    exact .inl ⟨hports, _, hseq, rfl, rfl⟩
  · cases hown with
    | error st => exact .inr ⟨rfl, .inr ⟨st, 0, rfl⟩⟩
    | answer s' hsame r => exact .inr ⟨rfl, .inr ⟨.ok, r, by rw [State.respond_ports, hsame.ports]⟩⟩
    | segment s' hsame =>
      rw [State.endSegment_eq s' b cmd arg k (hsame.ports ▸ hport)]
      exact .inr ⟨rfl, .inl (by rw [State.release_ports, hsame.ports])⟩
    | goesOn s' hsame samples p => exact .inl ⟨hsame.ports, _, rfl, rfl, rfl⟩
    | delays s' hsame n p => exact .inl ⟨hsame.ports, _, rfl, rfl, rfl⟩

/-- Settles O37: the ports are the old ones or have one change, at the segment's own port (`exec_ports`). -/
theorem microStepStaysWithItsPort : Obligations.MicroStepStaysWithItsPort := by
  intro i s t b cmd arg hb hport h
  obtain ⟨hparams, hinputs, hgrants⟩ := exec_environment hb h
  rcases exec_ports hb hport h with ⟨hports, b', hseq, hp, hs⟩ | ⟨hidle, hports | ⟨status, result, hports⟩⟩
  · exact ⟨fun q _ => by rw [hports], by rw [hports], hparams, hinputs, hgrants, .inl ⟨b', hseq, hp, hs, hports⟩⟩
  · exact ⟨fun q hq => by rw [hports, List.getElem?_set_ne hq.symm], by rw [hports, List.length_set], hparams, hinputs, hgrants,
      .inr (.inl ⟨hidle, by rw [hports, getElem?_set_same hport]⟩)⟩
  · exact ⟨fun q hq => by rw [hports, List.getElem?_set_ne hq.symm], by rw [hports, List.length_set], hparams, hinputs, hgrants,
      .inr (.inr ⟨hidle, status, result, by rw [hports, getElem?_set_same hport]⟩)⟩

/-! ## The writers of each register -/

theorem OwnStep.gain_eq (h : OwnStep s b i t) (hinit : ∀ g, i ≠ .init g) (hset : ∀ g, i ≠ .setGain g) : t.gain = s.gain := by
  cases h with
  | initWrites g => exact absurd rfl (hinit g)
  | stores g => exact absurd rfl (hset g)
  | _ => simp

theorem OwnStep.offset_eq (h : OwnStep s b i t) (hinit : ∀ g, i ≠ .init g) (htare : ∀ n, i ≠ .tare n) : t.offset = s.offset := by
  cases h with
  | initWrites g => exact absurd rfl (hinit g)
  | tares n => exact absurd rfl (htare n)
  | _ => simp

theorem OwnStep.scale_eq (h : OwnStep s b i t) (hinit : ∀ g, i ≠ .init g) (hcal : ∀ n w, i ≠ .calibrate n w) :
    t.scale = s.scale := by
  cases h with
  | initWrites g => exact absurd rfl (hinit g)
  | calibrates n m w => exact absurd rfl (hcal n w)
  | _ => simp

theorem OwnStep.initd_eq (h : OwnStep s b i t) (hinit : ∀ g, i ≠ .init g) (hcleanup : i ≠ .cleanup) :
    t.initd = s.initd ∧ t.sckOe = s.sckOe := by
  cases h with
  | initWrites g => exact absurd rfl (hinit g)
  | cleansUp => exact absurd rfl hcleanup
  | _ => simp

theorem OwnStep.pd_eq (h : OwnStep s b i t) (hinit : ∀ g, i ≠ .init g) (hset : ∀ v, i ≠ .setPd v)
    (hkind : kindAt s.params.pdGetterWakes i b.seg ≠ .wake) : t.pd = s.pd := by
  cases h with
  | initWrites g => exact absurd rfl (hinit g)
  | powerDown v | powerUp v => exact absurd rfl (hset v)
  | wakes i hwake => exact absurd hwake hkind
  | _ => simp

/-- The command's own micro-steps write `SCK` at the start of a segment only, and then 0. -/
theorem OwnStep.sck_eq (h : OwnStep s b i t) :
    t.sck = s.sck ∨ (t.sck = false ∧ b.pos = .start ∧ ((∃ g, i = .init g) ∨ (∃ v, i = .setPd v) ∨ i = .cleanup ∨
      (kindAt s.params.pdGetterWakes i b.seg = .wake ∧ s.pd = true))) := by
  cases h with
  | initBegins g hpos => exact .inr ⟨rfl, hpos, .inl ⟨g, rfl⟩⟩
  | powersDown v hpos | powersUp v hpos => exact .inr ⟨rfl, hpos, .inr (.inl ⟨v, rfl⟩)⟩
  | cleansUp hpos => exact .inr ⟨rfl, hpos, .inr (.inr (.inl rfl))⟩
  | wakeBegins i hkind hpos _ hpd => exact .inr ⟨rfl, hpos, .inr (.inr (.inr ⟨hkind, hpd⟩))⟩
  | _ => exact .inl (by simp [initRegisters])

/-- The bit engine's micro-steps write `SCK` at the edges of a pulse only. -/
theorem lineStep_sck (h : lineStep s b = some t) :
    t.sck = s.sck ∨
    (t.sck = true ∧ ((∃ j, b.pos = .bitHigh j) ∨ (∃ n, b.pos = .pulseHigh n) ∨ b.pos = .holdHigh)) ∨
    (t.sck = false ∧ ((∃ j, b.pos = .bitLow j) ∨ (∃ n, b.pos = .pulseLow n))) := by
  obtain ⟨v, rest, n, hd⟩ := s.doutRead_frame
  unfold lineStep at h
  split at h <;> cases h
  case h_1 hpos => exact .inl (by cases v <;> simp [waitReadyStep, hd])
  case h_2 j hpos => exact .inr (.inl ⟨rfl, .inl ⟨j, hpos⟩⟩)
  case h_3 j hpos => exact .inr (.inr ⟨rfl, .inl ⟨j, hpos⟩⟩)
  case h_4 j hpos => exact .inl (by simp [bitSampleStep, hd])
  case h_5 n hpos => exact .inr (.inl ⟨rfl, .inr (.inl ⟨n, hpos⟩)⟩)
  case h_6 n hpos => exact .inr (.inr ⟨rfl, .inr ⟨n, hpos⟩⟩)
  case h_7 hpos => exact .inr (.inl ⟨rfl, .inr (.inr hpos)⟩)

/-- Settles O36: the bit engine writes `SCK` alone, and the command's own micro-steps are those of `OwnStep`. -/
theorem registersHaveOnlyTheirWriters : Obligations.RegistersHaveOnlyTheirWriters := by
  intro i s t b hb h
  rcases exec_cases hb h with hline | hown
  · obtain ⟨hinitd, hgain, hpd, hoffset, hscale, hsckOe, -⟩ := lineStep_frame hline
    refine ⟨fun _ _ => hgain, fun _ _ => hoffset, fun _ _ => hscale, fun _ _ => ⟨hinitd, hsckOe⟩, fun _ _ _ => hpd, ?_⟩
    rcases lineStep_sck hline with hsame | hrise | hfall
    · exact .inl hsame
    · exact .inr (.inl hrise)
    · exact .inr (.inr (.inl hfall))
  · have hwake (hkind : kindAt s.params.pdGetterWakes i b.seg = .wake) :
        (segmentKinds s.params.pdGetterWakes i)[b.seg]? = some .wake :=
      hkind ▸ (segmentKinds_of_kindAt (.inl hkind)).1
    refine ⟨hown.gain_eq, hown.offset_eq, hown.scale_eq, hown.initd_eq,
      fun hinit hset hkind => hown.pd_eq hinit hset (mt hwake hkind), ?_⟩
    rcases hown.sck_eq with hsame | ⟨hsck, hpos, hcommand⟩
    · exact .inl hsame
    · refine .inr (.inr (.inr ⟨hsck, hpos, ?_⟩))
      rcases hcommand with hinit | hset | hcleanup | ⟨hkind, hpd⟩
      · exact .inl hinit
      · exact .inr (.inl hset)
      · exact .inr (.inr (.inl hcleanup))
      · exact .inr (.inr (.inr ⟨hwake hkind, hpd⟩))

end Sys2Proof.Machine
end

section
/-! An idle engine does not read the delay timer (10_state.md R34): what its step makes of the timer is all that depends on it. -/

namespace Sys2Proof.Machine

variable {s : State} {b : Busy}

/-- The same engine with another value in the timer. -/
def State.withTimer (s : State) (v : Nat) : State := { s with timer := v }

@[simp] theorem State.withTimer_initd (s : State) (v : Nat) : (s.withTimer v).initd = s.initd := rfl
@[simp] theorem State.withTimer_gain (s : State) (v : Nat) : (s.withTimer v).gain = s.gain := rfl
@[simp] theorem State.withTimer_pd (s : State) (v : Nat) : (s.withTimer v).pd = s.pd := rfl
@[simp] theorem State.withTimer_scale (s : State) (v : Nat) : (s.withTimer v).scale = s.scale := rfl
@[simp] theorem State.withTimer_params (s : State) (v : Nat) : (s.withTimer v).params = s.params := rfl
@[simp] theorem State.withTimer_ports (s : State) (v : Nat) : (s.withTimer v).ports = s.ports := rfl
@[simp] theorem State.withTimer_grants (s : State) (v : Nat) : (s.withTimer v).grants = s.grants := rfl

/-- The second answer is the first up to the timer. -/
def SameButTimer (r r' : Result) : Prop := ∀ t, r = .next t → ∃ u, r' = .next u ∧ u.withTimer t.timer = t

theorem sameButTimer_next {t u : State} (h : u.withTimer t.timer = t) : SameButTimer (.next t) (.next u) := by
  intro t' ht
  cases ht
  exact ⟨u, rfl, h⟩

theorem sameButTimer_requireInitd {go go' : Result} (v : Nat) (h : SameButTimer go go') :
    SameButTimer (requireInitd s b go) (requireInitd (s.withTimer v) b go') := by
  unfold requireInitd
  rw [State.withTimer_initd]
  split
  · exact h
  · exact sameButTimer_next rfl

theorem State.endSegment_withTimer (s : State) (b : Busy) (v : Nat) :
    (s.withTimer v).endSegment b = (s.endSegment b).withTimer v := by
  unfold State.endSegment
  rw [State.withTimer_ports]
  split <;> rfl

theorem sameButTimer_endSegment (s : State) (b : Busy) (v : Nat) :
    SameButTimer (.next (s.endSegment b)) (.next ((s.withTimer v).endSegment b)) :=
  sameButTimer_next (by rw [State.endSegment_withTimer]; rfl)

theorem sameButTimer_wakeSteps (v : Nat) (check : Option Status) :
    SameButTimer (wakeSteps s b check).start (wakeSteps (s.withTimer v) b check).start := by
  refine sameButTimer_requireInitd v ?_
  cases check with
  | some status => exact sameButTimer_next rfl
  | none =>
    show SameButTimer (if s.pd then _ else _) (if s.pd then _ else _)
    split
    · exact sameButTimer_next rfl
    · exact sameButTimer_endSegment s b v

theorem sameButTimer_storeGain (v g : Nat) :
    SameButTimer (.next (storeGain g s b)) (.next (storeGain g (s.withTimer v) b)) := by
  unfold storeGain
  rw [State.withTimer_gain]
  split
  · exact sameButTimer_next rfl
  · split
    · exact sameButTimer_next rfl
    · exact sameButTimer_endSegment { s with gain := gainPattern g } b v

/-- The first micro-step of every segment. -/
theorem sameButTimer_start (v : Nat) (i : Instr) :
    SameButTimer (ownSteps s b i).start (ownSteps (s.withTimer v) b i).start := by
  cases i with
  | init g =>
    refine sameButTimer_next ?_
    unfold beginInit
    split <;> rfl
  | tare n =>
    rcases hseg : b.seg with _ | k <;> simp only [ownSteps, hseg]
    · exact sameButTimer_wakeSteps v none
    · exact sameButTimer_requireInitd v (sameButTimer_next rfl)
  | calibrate n w =>
    rcases hseg : b.seg with _ | k <;> simp only [ownSteps, hseg]
    · exact sameButTimer_wakeSteps v (weightCheck w)
    · exact sameButTimer_requireInitd v (sameButTimer_next rfl)
  | getWeight =>
    rcases hseg : b.seg with _ | k <;> simp only [ownSteps, hseg]
    · exact sameButTimer_wakeSteps v none
    · refine sameButTimer_requireInitd v ?_
      rw [State.withTimer_scale]
      split <;> exact sameButTimer_next rfl
  | getGain =>
    rcases hseg : b.seg with _ | k <;> simp only [ownSteps, hseg]
    · exact sameButTimer_wakeSteps v none
    · exact sameButTimer_requireInitd v (sameButTimer_next rfl)
  | setGain g =>
    rcases hseg : b.seg with _ | _ | k <;> simp only [ownSteps, hseg]
    · exact sameButTimer_requireInitd v (sameButTimer_storeGain v g)
    · exact sameButTimer_wakeSteps v none
    · exact sameButTimer_requireInitd v (sameButTimer_next rfl)
  | getPd =>
    rcases hseg : b.seg with _ | k <;> simp only [ownSteps, hseg]
    · rw [State.withTimer_params]
      split
      · exact sameButTimer_wakeSteps v none
      · exact sameButTimer_requireInitd v (sameButTimer_next rfl)
    · exact sameButTimer_requireInitd v (sameButTimer_next rfl)
  | setPd p =>
    refine sameButTimer_requireInitd v (sameButTimer_next ?_)
    unfold beginPowerTransition
    rw [State.withTimer_pd]
    split
    · rfl
    · split <;> rfl
  | cleanup => exact sameButTimer_requireInitd v (sameButTimer_next rfl)

theorem sameButTimer_runMicroStep (hb : s.seq = .busy b) (hpos : b.pos = .start) (v : Nat) :
    SameButTimer (runMicroStep s b) (runMicroStep (s.withTimer v) b) := by
  match hport : s.ports[b.port]? with
  | some (.pending cmd arg k) =>
    cases hdec : decode cmd arg with
    | error e =>
      rw [runMicroStep_of_illegal hport hdec, runMicroStep_of_illegal (s := s.withTimer v) hport hdec]
      exact sameButTimer_next rfl
    | ok i =>
      rw [runMicroStep_of_ok hport hdec, runMicroStep_of_ok (s := s.withTimer v) hport hdec, exec_start hb hpos,
        exec_start (s := s.withTimer v) hb hpos]
      exact sameButTimer_start v i
  | none | some .empty | some (.done _ _) =>
    intro t h
    simp only [runMicroStep, hport, reduceCtorEq] at h

theorem State.grant_timer (s : State) (v : Nat) :
    (s.withTimer v).grant = s.grant.map fun x => (x.1.withTimer v, x.2) := by
  have hdraw : (s.withTimer v).drawGrant = (s.drawGrant.1, s.drawGrant.2.withTimer v) := by
    unfold State.drawGrant
    rw [State.withTimer_grants]
    split <;> rfl
  have hports : (s.withTimer v).pendingPorts = s.pendingPorts := rfl
  unfold State.grant
  rw [hports, hdraw]
  split
  · rfl
  · rw [Option.map_map]
    rfl

theorem sameButTimer_engineStep (hidle : s.seq = .idle) (v : Nat) :
    SameButTimer (engineStep s) (engineStep (s.withTimer v)) := by
  cases hgrant : s.grant with
  | none =>
    have hnone : (s.withTimer v).grant = none := by rw [State.grant_timer, hgrant]; rfl
    rw [engineStep_wait hidle hgrant, engineStep_wait (s := s.withTimer v) hidle hnone]
    exact sameButTimer_next rfl
  | some granted =>
    obtain ⟨s', b⟩ := granted
    have hsome : (s.withTimer v).grant = some (s'.withTimer v, b) := by
      rw [State.grant_timer, hgrant]; rfl
    obtain ⟨-, -, _, _, -, hpos, -, -, -, rfl⟩ := State.grant_spec hgrant
    rw [engineStep_grant hidle hgrant, engineStep_grant (s := s.withTimer v) hidle hsome]
    exact sameButTimer_runMicroStep rfl hpos v

/-- Settles O44: an idle engine waits or makes the first micro-step of a granted segment, which only writes the timer. -/
theorem idleStepIgnoresTheTimer : Obligations.IdleStepIgnoresTheTimer := by
  intro s t v hidle
  suffices h : SameButTimer (step s) (step (s.withTimer v)) from h t
  have hin' : (s.withTimer v).inputs = s.inputs := rfl
  cases hin : s.inputs with
  | nil =>
    rw [step_quiet hin, step_quiet (hin'.trans hin)]
    exact sameButTimer_engineStep hidle v
  | cons e rest =>
    cases hrst : e.rst with
    | true =>
      rw [step_of_held (State.clock_of_reset hin hrst), step_of_held (State.clock_of_reset (hin'.trans hin) hrst)]
      exact sameButTimer_next rfl
    | false =>
      have hclock := State.clock_of_edge hin hrst
      have hclock' := State.clock_of_edge (hin'.trans hin) hrst
      cases hstall : e.stall with
      | true =>
        rw [hstall, if_pos rfl] at hclock hclock'
        rw [step_of_held hclock, step_of_held hclock']
        exact sameButTimer_next rfl
      | false =>
        rw [hstall, if_neg Bool.false_ne_true] at hclock hclock'
        rw [step_of_free hclock, step_of_free hclock']
        exact sameButTimer_engineStep (s := s.afterPins e.pins rest) hidle v

end Sys2Proof.Machine
end

section
/-! The invariant of the machine (10_state.md sections 2 to 4): it holds after reset, the host's edge and the grant keep it, and so do
the bit engine's micro-steps and each of a command's own (`OwnStep`). -/

namespace Sys2Proof.Machine

variable {s t : State} {b : Busy}

/-- The invariant but for the segment in progress. -/
structure QuietInv (s : State) : Prop where
  somePort : s.ports ≠ []
  params : s.params.ok = true
  gain : s.gain = 128 ∨ s.gain = 64 ∨ s.gain = 32
  scale : isFinite s.scale = true
  driven : s.sckOe = s.initd
  ports : ∀ port ∈ s.ports, PortFits s.params.pdGetterWakes port

theorem EngineInv.quiet (h : EngineInv s) : QuietInv s :=
  ⟨h.somePort, h.params, h.gain, h.scale, h.driven, h.ports⟩

theorem QuietInv.with_busy (h : QuietInv s) (hb : ∀ b, s.seq = .busy b → BusyFits s b) : EngineInv s :=
  ⟨h.somePort, h.params, h.gain, h.scale, h.driven, h.ports, hb⟩

theorem QuietInv.with_idle (h : QuietInv s) (hidle : s.seq = .idle) : EngineInv s :=
  h.with_busy fun b hb => by rw [hidle] at hb; cases hb

/-- A segment that ends leaves its port in a state that it can have. -/
theorem QuietInv.release (h : QuietInv s) {p : Nat} {port : Port} (hport : PortFits s.params.pdGetterWakes port) :
    EngineInv (s.release p port) := by
  refine QuietInv.with_idle ⟨?_, h.params, h.gain, h.scale, h.driven, fun q hq => ?_⟩ rfl
  · simpa using h.somePort
  · rcases List.mem_or_eq_of_mem_set hq with hold | rfl
    · exact h.ports q hold
    · exact hport

theorem QuietInv.raise (h : QuietInv s) (status : Status) : EngineInv (s.raise b status) :=
  h.release (.inr rfl)

theorem QuietInv.respond (h : QuietInv s) (result : ResultWord) : EngineInv (s.respond b result) :=
  h.release (.inl rfl)

/-! ## Reset -/

theorem params_ok_iff (c : Params) : c.ok = true ↔ 0 < c.perMicrosecond ∧ 0 < c.tSckHigh ∧ c.tSckHigh < 60 * c.perMicrosecond ∧
    0 < c.tSckLow ∧ 0 < c.tPoll ∧ 60 * c.perMicrosecond ≤ c.tPdHold := by
  simp [Params.ok, and_assoc]

theorem configParams_ok : Config.params.ok = true := by
  rw [params_ok_iff]
  simp only [Config.params]
  generalize Config.perMicrosecondLess1 = u
  have hhigh := Nat.mod_lt Config.sckHigh (show 60 * (u + 1) - 1 > 0 by omega)
  omega

theorem quietInv_of_reset_registers (hports : s.ports ≠ []) (hempty : ∀ port ∈ s.ports, port = .empty)
    (hparams : s.params.ok = true) (hregisters : s.registers = State.reset.registers) : QuietInv s := by
  simp only [State.registers, State.reset, Registers.mk.injEq] at hregisters
  obtain ⟨hinitd, hgain, -, -, hscale, -, hsckOe⟩ := hregisters
  refine ⟨hports, hparams, .inl hgain, ?_, by rw [hsckOe, hinitd], fun port hport => ?_⟩
  · rw [hscale]
    decide
  · rw [hempty port hport]
    trivial

/-- Settles O45: no segment is in progress and every port is empty; the free times are within their bounds. -/
theorem resetMeetsTheInvariant : Obligations.ResetMeetsTheInvariant :=
  (quietInv_of_reset_registers (List.cons_ne_nil _ _) (fun _ h => List.mem_singleton.mp h) configParams_ok rfl).with_idle rfl

theorem EngineInv.resetEvent (h : EngineInv s) : EngineInv s.resetEvent := by
  have hports : s.resetEvent.ports ≠ [] := by
    simpa [State.resetEvent] using h.somePort
  exact (quietInv_of_reset_registers hports (fun _ hport => List.eq_of_mem_replicate hport) h.params rfl).with_idle rfl

/-! ## The edge -/

theorem segmentKinds_ne_nil (w : Bool) (i : Instr) : 0 < (segmentKinds w i).length := by
  cases i <;> cases w <;> exact Nat.succ_pos _

theorem portFits_of_ok {w : Bool} {cmd : CmdWord} {arg : ArgWord} {i : Instr} (hdec : decode cmd arg = .ok i) (k : Nat) :
    PortFits w (.pending cmd arg k) ↔ k < (segmentKinds w i).length := by
  simp only [PortFits, hdec]

theorem portFits_first (w : Bool) (cmd : CmdWord) (arg : ArgWord) : PortFits w (.pending cmd arg 0) := by
  cases hdec : decode cmd arg with
  | ok i => exact (portFits_of_ok hdec 0).mpr (segmentKinds_ne_nil w i)
  | error e => simp only [PortFits, hdec]

theorem PortFits.clockPort {w : Bool} {port : Port} (h : PortFits w port) (pin : PortPins) : PortFits w (clockPort pin port) := by
  cases port with
  | empty =>
    cases hvalid : pin.cmdValid <;> simp only [Machine.clockPort, hvalid, Bool.false_eq_true, if_false, if_true]
    · trivial
    · exact portFits_first w _ _
  | pending cmd arg k => exact h
  | done status result =>
    cases hready : pin.rspReady <;> simp only [Machine.clockPort, hready, Bool.false_eq_true, if_false, if_true]
    · exact h
    · trivial

theorem mem_clockPorts {pins : List PortPins} {ports : List Port} {port : Port} (h : port ∈ clockPorts pins ports) :
    ∃ old ∈ ports, port = old ∨ ∃ pin, port = clockPort pin old := by
  obtain ⟨p, hp⟩ := List.mem_iff_getElem?.mp h
  rw [clockPorts_getElem?] at hp
  split at hp
  · next pin old _ hold => exact ⟨old, List.mem_of_getElem? hold, .inr ⟨pin, (Option.some.inj hp).symm⟩⟩
  · next old _ hold => exact ⟨old, List.mem_of_getElem? hold, .inl (Option.some.inj hp).symm⟩
  all_goals cases hp

theorem EngineInv.afterPins (h : EngineInv s) (pins : List PortPins) (rest : List Edge) : EngineInv (s.afterPins pins rest) where
  somePort hnil := h.somePort (List.eq_nil_of_length_eq_zero (by rw [← clockPorts_length pins, ← List.length_eq_zero_iff.mpr hnil]; rfl))
  params := h.params
  gain := h.gain
  scale := h.scale
  driven := h.driven
  ports port hport := by
    obtain ⟨old, hold, rfl | ⟨pin, rfl⟩⟩ := mem_clockPorts hport
    · exact h.ports _ hold
    · exact (h.ports old hold).clockPort pin
  busy b hb := by
    obtain ⟨cmd, arg, hport, hrest⟩ := h.busy b hb
    exact ⟨cmd, arg, clockPorts_pending hport, hrest⟩

/-- What an edge leaves: the engine held or free, in a state of the invariant. -/
theorem EngineInv.clock (h : EngineInv s) : ∃ s1, EngineInv s1 ∧ (s.clock = .held s1 ∨ s.clock = .free s1) := by
  cases hin : s.inputs with
  | nil => exact ⟨s, h, .inr (State.clock_quiet hin)⟩
  | cons e rest =>
    cases hrst : e.rst with
    | true =>
      have hrest : EngineInv { s with inputs := rest } := ⟨h.somePort, h.params, h.gain, h.scale, h.driven, h.ports, h.busy⟩
      exact ⟨_, hrest.resetEvent, .inl (State.clock_of_reset hin hrst)⟩
    | false =>
      refine ⟨_, h.afterPins e.pins rest, ?_⟩
      rw [State.clock_of_edge hin hrst]
      cases e.stall
      · exact .inr rfl
      · exact .inl rfl

/-! ## The grant and the delay -/

theorem EngineInv.grant {s' : State} (h : EngineInv s) (hgrant : s.grant = some (s', b)) : EngineInv s' ∧ s'.seq = .busy b := by
  obtain ⟨cmd, arg, rest, n, hport, hpos, hdelay, hacc, hsamples, rfl⟩ := State.grant_spec hgrant
  refine ⟨QuietInv.with_busy ⟨h.somePort, h.params, h.gain, h.scale, h.driven, h.ports⟩ fun b' hb => ?_, rfl⟩
  cases hb
  have hfits := h.ports _ (List.mem_of_getElem? hport)
  refine ⟨cmd, arg, hport, by rw [LineFits, hpos]; trivial, ?_⟩
  cases hdec : decode cmd arg with
  | ok i =>
    refine ⟨⟨_, List.getElem?_eq_getElem ((portFits_of_ok hdec _).mp hfits), ?_⟩, ?_, ?_⟩
    · simp [SegmentKind.fits, hpos, hsamples]
    · simp [hsamples]
    · simp [hpos]
  | error e => exact hpos

theorem EngineInv.tick (h : EngineInv s) (hb : s.seq = .busy b) : EngineInv (s.tick b) := by
  refine QuietInv.with_busy ⟨h.somePort, h.params, h.gain, h.scale, h.driven, h.ports⟩ fun b' hb' => ?_
  cases hb'
  exact h.busy b hb

/-! ## The segment in progress -/

/-- The segment `b` of the command `i` is in progress, of the kind `kind`: what `BusyFits` says of a legal word. -/
structure Running (s : State) (b : Busy) (i : Instr) (kind : SegmentKind) : Prop where
  port : ∃ cmd arg, s.ports[b.port]? = some (.pending cmd arg b.seg) ∧ decode cmd arg = .ok i
  kinds : (segmentKinds s.params.pdGetterWakes i)[b.seg]? = some kind
  line : LineFits s b
  fits : kind.fits b = true
  samples : ∀ x ∈ b.samples, sampleInRange i x
  init : ∀ g, i = .init g → b.pos = .initDrive → gainAccepted (initGain g) = true

variable {i : Instr} {kind : SegmentKind}

theorem Running.kindAt (h : Running s b i kind) : kindAt s.params.pdGetterWakes i b.seg = kind :=
  kindAt_of_segmentKinds h.kinds

theorem Running.busyFits (h : Running s b i kind) : BusyFits s b := by
  obtain ⟨cmd, arg, hport, hdec⟩ := h.port
  refine ⟨cmd, arg, hport, h.line, ?_⟩
  rw [hdec]
  exact ⟨⟨kind, h.kinds, h.fits⟩, h.samples, h.init⟩

theorem BusyFits.running (h : BusyFits s b) {cmd : CmdWord} {arg : ArgWord} {k : Nat}
    (hport : s.ports[b.port]? = some (.pending cmd arg k)) (hdec : decode cmd arg = .ok i) : ∃ kind, Running s b i kind := by
  obtain ⟨cmd', arg', hport', hline, hrest⟩ := h
  rw [hport] at hport'
  cases hport'
  rw [hdec] at hrest
  obtain ⟨⟨kind, hkinds, hfits⟩, hsamples, hinit⟩ := hrest
  exact ⟨kind, ⟨cmd, arg, hport, hdec⟩, hkinds, hline, hfits, hsamples, hinit⟩

/-- What the running micro-step of a state of the invariant is. -/
theorem BusyFits.runMicroStep_cases (h : BusyFits s b) : runMicroStep s b = .next (s.raise b .illegalCommand) ∨
    ∃ i kind, Running s b i kind ∧ runMicroStep s b = exec i s := by
  obtain ⟨cmd, arg, hport, -⟩ := id h
  cases hdec : decode cmd arg with
  | error e => exact .inl (runMicroStep_of_illegal hport hdec)
  | ok i =>
    obtain ⟨kind, hrun⟩ := h.running hport hdec
    exact .inr ⟨i, kind, hrun, runMicroStep_of_ok hport hdec⟩

/-- A segment that goes on in another state and at another micro-step, if its port, kind and samples still fit. -/
theorem Running.moves (h : Running s b i kind) {b' : Busy} (hports : t.ports = s.ports) (hparams : t.params = s.params)
    (hport : b'.port = b.port) (hseg : b'.seg = b.seg) (hline : LineFits t b') (hfits : kind.fits b' = true)
    (hsamples : ∀ x ∈ b'.samples, sampleInRange i x) (hinit : ∀ g, i = .init g → b'.pos = .initDrive → gainAccepted (initGain g) = true) :
    Running t b' i kind :=
  ⟨by rw [hports, hport, hseg]; exact h.port, by rw [hparams, hseg]; exact h.kinds, hline, hfits, hsamples, hinit⟩

/-! ## The bit engine's micro-steps -/

/-- Whether a segment of this kind can be in a frame with so many samples collected. -/
def SegmentKind.collects (kind : SegmentKind) (n : Nat) : Bool :=
  match kind with
  | .sample m => decide (n < m)
  | .wake | .discard | .construct | .power => n == 0
  | .store | .answer | .teardown => false

theorem fits_of_inFrame (h : b.pos.inFrame = true) : kind.fits b = kind.collects b.samples.length := by
  cases hpos : b.pos with
  | start | initDrive | holdHigh | holdEnd =>
    rw [hpos] at h
    cases h
  | _ => cases kind <;> simp only [SegmentKind.fits, hpos, SegmentKind.collects]

theorem pulses_pos {gain : BitVec 8} (h : gain = 128 ∨ gain = 64 ∨ gain = 32) : 0 < pulses gain := by
  rcases h with rfl | rfl | rfl <;> decide

/-- What the bit engine's micro-step makes of the line and of its position: a frame goes on, or the hold of the power-down ends. -/
theorem lineStep_lineFits {b' : Busy} (hpulses : 0 < pulses s.gain) (hfit : LineFits s b) (h : lineStep s b = some t)
    (hb : t.seq = .busy b') :
    LineFits t b' ∧ (b.pos.inFrame = true ∧ b'.pos.inFrame = true ∨ b.pos = .holdHigh ∧ b'.pos = .holdEnd) := by
  cases hpos : b.pos with
  | wait =>
    obtain ⟨v, rest, n, hd⟩ := s.doutRead_frame
    rw [lineStep_wait hpos, waitReadyStep, hd] at h
    have hinitd : s.initd = true := by simpa [LineFits, hpos] using hfit
    cases v with
    | true =>
      cases h; cases hb
      exact ⟨hinitd, .inl ⟨rfl, rfl⟩⟩
    | false =>
      cases h; cases hb
      exact ⟨⟨hinitd, Nat.one_pos, fun hzero => absurd rfl hzero⟩, .inl ⟨rfl, rfl⟩⟩
  | bitHigh j =>
    rw [lineStep_bitHigh hpos] at h
    obtain ⟨hinitd, hacc, -⟩ : s.initd = true ∧ b.acc.toNat < 2 ^ j.val ∧ _ := by simpa only [LineFits, hpos] using hfit
    cases h; cases hb
    exact ⟨⟨hinitd, hacc, rfl⟩, .inl ⟨rfl, rfl⟩⟩
  | bitLow j =>
    rw [lineStep_bitLow hpos] at h
    obtain ⟨hinitd, hacc, -⟩ : s.initd = true ∧ b.acc.toNat < 2 ^ j.val ∧ _ := by simpa only [LineFits, hpos] using hfit
    cases h; cases hb
    exact ⟨⟨hinitd, hacc, rfl⟩, .inl ⟨rfl, rfl⟩⟩
  | bitSample j =>
    obtain ⟨v, rest, n, hd⟩ := s.doutRead_frame
    rw [lineStep_bitSample hpos, bitSampleStep, hd] at h
    obtain ⟨hinitd, hacc, hsck⟩ : s.initd = true ∧ b.acc.toNat < 2 ^ j.val ∧ s.sck = false := by
      simpa only [LineFits, hpos] using hfit
    cases h; cases hb
    by_cases hlast : j.val + 1 < 24
    · rw [afterBit_of_lt _ hlast]
      exact ⟨⟨hinitd, accumulate_lt hacc v, fun _ => hsck⟩, .inl ⟨rfl, rfl⟩⟩
    · rw [afterBit_last _ hlast, pulsePos, if_neg (by omega)]
      exact ⟨⟨hinitd, hpulses, Nat.le_refl _, hsck⟩, .inl ⟨rfl, rfl⟩⟩
  | pulseHigh n =>
    rw [lineStep_pulseHigh hpos] at h
    obtain ⟨hinitd, hone, hle, -⟩ : s.initd = true ∧ 1 ≤ n ∧ n ≤ pulses s.gain ∧ _ := by
      simpa only [LineFits, hpos] using hfit
    cases h; cases hb
    exact ⟨⟨hinitd, hone, hle, rfl⟩, .inl ⟨rfl, rfl⟩⟩
  | pulseLow n =>
    rw [lineStep_pulseLow hpos] at h
    obtain ⟨hinitd, hone, hle, -⟩ : s.initd = true ∧ 1 ≤ n ∧ n ≤ pulses s.gain ∧ _ := by
      simpa only [LineFits, hpos] using hfit
    cases h; cases hb
    by_cases hlast : n - 1 = 0
    · rw [pulsePos, if_pos hlast]
      exact ⟨⟨hinitd, rfl⟩, .inl ⟨rfl, rfl⟩⟩
    · rw [pulsePos, if_neg hlast]
      exact ⟨⟨hinitd, by omega, (Nat.sub_le n 1).trans hle, rfl⟩, .inl ⟨rfl, rfl⟩⟩
  | holdHigh =>
    rw [lineStep_holdHigh hpos] at h
    obtain ⟨hinitd, -⟩ : s.initd = true ∧ _ := by simpa only [LineFits, hpos] using hfit
    cases h; cases hb
    exact ⟨⟨hinitd, rfl⟩, .inr ⟨rfl, rfl⟩⟩
  | start | initDrive | frameEnd | holdEnd => simp [lineStep, hpos] at h

/-- The bit engine's micro-step keeps the segment in progress. -/
theorem Running.lineStep (h : Running s b i kind) (hpulses : 0 < pulses s.gain) (hline : lineStep s b = some t) :
    ∃ b', t.seq = .busy b' ∧ b'.samples = b.samples ∧ Running t b' i kind := by
  obtain ⟨-, -, -, -, -, -, hports, hparams, -, -, p, d, acc, hseq⟩ := lineStep_frame hline
  obtain ⟨hfit, hmove⟩ := lineStep_lineFits hpulses h.line hline hseq
  refine ⟨_, hseq, rfl, h.moves hports hparams rfl rfl hfit ?_ h.samples ?_⟩
  · have hfits := h.fits
    rcases hmove with ⟨hframe, hframe'⟩ | ⟨hhold, hheld⟩
    · rw [fits_of_inFrame hframe] at hfits
      rw [fits_of_inFrame hframe', ← hfits]
    · simp only [SegmentKind.fits, hhold] at hfits
      simp only at hheld
      simp only [SegmentKind.fits, hheld, hfits]
  · rintro g - hdrive
    rcases hmove with ⟨-, hframe⟩ | ⟨-, hheld⟩
    · rw [hdrive] at hframe
      cases hframe
    · rw [hdrive] at hheld
      cases hheld

theorem EngineInv.lineStep (h : EngineInv s) (hrun : Running s b i kind) (hline : lineStep s b = some t) : EngineInv t := by
  obtain ⟨b', hseq, -, hrun'⟩ := hrun.lineStep (pulses_pos h.gain) hline
  obtain ⟨hinitd, hgain, -, -, hscale, hsckOe, hports, hparams, -⟩ := lineStep_frame hline
  refine QuietInv.with_busy ⟨by rw [hports]; exact h.somePort, by rw [hparams]; exact h.params, by rw [hgain]; exact h.gain,
    by rw [hscale]; exact h.scale, by rw [hsckOe, hinitd]; exact h.driven, by rw [hports, hparams]; exact h.ports⟩ fun b'' hb => ?_
  rw [hseq] at hb
  cases hb
  exact hrun'.busyFits

/-! ## A command's own micro-steps -/

theorem gainPattern_valid {g : Nat} (h : gainAccepted g = true) :
    gainPattern g = 128 ∨ gainPattern g = 64 ∨ gainPattern g = 32 := by
  rcases (gainAccepted_iff g).mp h with rfl | rfl | rfl
  · exact .inl rfl
  · exact .inr (.inl rfl)
  · exact .inr (.inr rfl)

/-- A segment that is not its command's last leaves the next one pending. -/
theorem QuietInv.endSegment (h : QuietInv s) (hrun : Running s b i kind) (hkind : kind = .wake ∨ kind = .store) :
    EngineInv (s.endSegment b) := by
  obtain ⟨cmd, arg, hport, hdec⟩ := hrun.port
  rw [State.endSegment_eq s b cmd arg _ hport]
  refine h.release ((portFits_of_ok hdec _).mpr (segmentKinds_of_kindAt ?_).2)
  rwa [hrun.kindAt]

/-- A frame begins, with the samples of `b'`. -/
theorem Running.beginsFrame (hrun : Running s b i kind) {b' : Busy} (h : QuietInv t)
    (hseq : t.seq = .busy { b' with pos := .wait, delaying := false })
    (hports : t.ports = s.ports) (hparams : t.params = s.params) (hinitd : t.initd = true)
    (hport : b'.port = b.port) (hseg : b'.seg = b.seg) (hcollects : kind.collects b'.samples.length = true)
    (hsamples : ∀ x ∈ b'.samples, sampleInRange i x) : EngineInv t := by
  refine h.with_busy fun b'' hb => ?_
  rw [hseq] at hb
  cases hb
  have hfits : kind.fits { b' with pos := .wait, delaying := false } = true := by
    rw [fits_of_inFrame (b := { b' with pos := .wait, delaying := false }) rfl]
    exact hcollects
  exact (hrun.moves (b' := { b' with pos := .wait, delaying := false }) hports hparams hport hseg hinitd hfits hsamples
    fun g _ hdrive => nomatch hdrive).busyFits

theorem isFinite_one : isFinite 0x3FF0000000000000 = true := by decide

theorem Running.samples_nil_of_start (h : Running s b i kind) (hpos : b.pos = .start) : b.samples = [] := by
  simpa [SegmentKind.fits, hpos] using h.fits

theorem EngineInv.ownStep (h : EngineInv s) (hrun : Running s b i kind) (hstep : OwnStep s b i t) : EngineInv t := by
  have hq := h.quiet
  obtain ⟨hsome, hparams, hgain, hscale, hdriven, hports⟩ := h.quiet
  cases hstep with
  | refuses _ _ status => exact hq.raise status
  | overflows => exact hq.raise _
  | answers _ _ _ result | finishes _ _ _ result => exact hq.respond result
  | initBegins g hpos haccepted =>
    refine QuietInv.with_busy ⟨hsome, hparams, hgain, hscale, hdriven, hports⟩ fun b' hb => ?_
    cases hb
    obtain rfl : SegmentKind.construct = kind := hrun.kindAt
    refine (hrun.moves (t := (s.sckWrite false).goto b .initDrive) (b' := { b with pos := .initDrive, delaying := false })
      rfl rfl rfl rfl rfl ?_ hrun.samples ?_).busyFits
    · simp [SegmentKind.fits, hrun.samples_nil_of_start hpos]
    · intro g' hg _
      cases hg
      exact haccepted
  | initWrites g hpos =>
    obtain rfl : SegmentKind.construct = kind := hrun.kindAt
    have hfits : b.samples = [] := by simpa [SegmentKind.fits, hpos] using hrun.fits
    refine hrun.beginsFrame (b' := b) ⟨hsome, hparams, gainPattern_valid (hrun.init g rfl hpos), isFinite_one, rfl, hports⟩
      rfl rfl rfl rfl rfl rfl ?_ hrun.samples
    rw [hfits]
    rfl
  | wakeEnds _ hkind => exact hq.endSegment hrun (.inl (hrun.kindAt ▸ hkind))
  | wakeBegins _ hkind hpos hinitd =>
    refine hrun.beginsFrame (b' := b) ⟨hsome, hparams, hgain, hscale, hdriven, hports⟩ rfl rfl rfl hinitd rfl rfl ?_ hrun.samples
    rw [hrun.samples_nil_of_start hpos, ← hrun.kindAt, hkind]
    rfl
  | wakes _ hkind =>
    have hquiet : QuietInv { s with pd := false } := ⟨hsome, hparams, hgain, hscale, hdriven, hports⟩
    exact hquiet.endSegment ⟨hrun.port, hrun.kinds, hrun.line, hrun.fits, hrun.samples, hrun.init⟩ (.inl (hrun.kindAt ▸ hkind))
  | stores g hkind hpos _ haccepted =>
    have hquiet : QuietInv { s with gain := gainPattern g } :=
      ⟨hsome, hparams, gainPattern_valid haccepted, hscale, hdriven, hports⟩
    exact hquiet.endSegment ⟨hrun.port, hrun.kinds, by rw [LineFits, hpos]; trivial, hrun.fits, hrun.samples, hrun.init⟩
      (.inr (hrun.kindAt ▸ hkind))
  | reads _ hkind hpos hinitd =>
    refine hrun.beginsFrame (b' := b) ⟨hsome, hparams, hgain, hscale, hdriven, hports⟩ rfl rfl rfl hinitd rfl rfl ?_ hrun.samples
    rw [hrun.samples_nil_of_start hpos]
    cases hk : kind with
    | discard => rfl
    | sample n => exact decide_eq_true (pos_of_kindAt_sample (hrun.kindAt.trans hk))
    | wake | store | answer | construct | power | teardown =>
      rw [hrun.kindAt, hk] at hkind
      cases hkind
  | samples _ n x hkind hpos hmore hx =>
    have hinitd : s.initd = true := by
      have hline := hrun.line
      simp only [LineFits, hpos] at hline
      exact hline.1
    refine hrun.beginsFrame (b' := { b with samples := b.samples ++ [x] }) ⟨hsome, hparams, hgain, hscale, hdriven, hports⟩
      rfl rfl rfl hinitd rfl rfl ?_ ?_
    · rw [← hrun.kindAt, hkind]
      simpa [SegmentKind.collects] using hmore
    · simp only [List.mem_append, List.mem_singleton]
      rintro y (hy | rfl)
      · exact hrun.samples y hy
      · exact hx
  | tares n m _ _ offset result =>
    exact QuietInv.respond (s := { s with offset := offset }) ⟨hsome, hparams, hgain, hscale, hdriven, hports⟩ result
  | calibrates n m w sc _ _ hfinite =>
    exact QuietInv.respond (s := { s with scale := sc }) ⟨hsome, hparams, hgain, hfinite, hdriven, hports⟩ sc
  | powersDown v hpos hinitd =>
    refine QuietInv.with_busy ⟨hsome, hparams, hgain, hscale, hdriven, hports⟩ fun b' hb => ?_
    cases hb
    obtain rfl : SegmentKind.power = kind := hrun.kindAt
    refine (hrun.moves (t := (s.sckWrite false).delayThen b s.params.tSckLow .holdHigh)
      (b' := { b with pos := .holdHigh, delaying := true }) rfl rfl rfl rfl ⟨hinitd, rfl⟩ ?_ hrun.samples
      fun g hg => nomatch hg).busyFits
    simp [SegmentKind.fits, hrun.samples_nil_of_start hpos]
  | powerDown v =>
    exact QuietInv.respond (s := { s with pd := true }) ⟨hsome, hparams, hgain, hscale, hdriven, hports⟩ 0
  | powersUp v hpos hinitd =>
    obtain rfl : SegmentKind.power = kind := hrun.kindAt
    refine hrun.beginsFrame (b' := b) ⟨hsome, hparams, hgain, hscale, hdriven, hports⟩ rfl rfl rfl hinitd rfl rfl ?_ hrun.samples
    rw [hrun.samples_nil_of_start hpos]
    rfl
  | powerUp v =>
    exact QuietInv.respond (s := { s with pd := false }) ⟨hsome, hparams, hgain, hscale, hdriven, hports⟩ 0
  | cleansUp =>
    exact QuietInv.respond (s := { s with sckOe := false, sck := false, initd := false })
      ⟨hsome, hparams, hgain, hscale, rfl, hports⟩ 0

theorem EngineInv.exec (h : EngineInv s) (hb : s.seq = .busy b) (hrun : Running s b i kind) (hexec : exec i s = .next t) :
    EngineInv t := by
  rcases exec_cases hb hexec with hline | hown
  · exact h.lineStep hrun hline
  · exact h.ownStep hrun hown

theorem EngineInv.runMicroStep (h : EngineInv s) (hb : s.seq = .busy b) (hstep : runMicroStep s b = .next t) : EngineInv t := by
  rcases (h.busy b hb).runMicroStep_cases with hillegal | ⟨i, kind, hrun, hexec⟩
  · rw [hillegal] at hstep
    cases hstep
    exact h.quiet.raise _
  · exact h.exec hb hrun (hexec.symm.trans hstep)

theorem EngineInv.engineStep (h : EngineInv s) (hstep : engineStep s = .next t) : EngineInv t := by
  cases hseq : s.seq with
  | busy b =>
    cases hdelay : b.delaying with
    | true =>
      rw [engineStep_delaying hseq hdelay] at hstep
      cases hstep
      exact h.tick hseq
    | false =>
      rw [engineStep_busy hseq hdelay] at hstep
      exact h.runMicroStep hseq hstep
  | idle =>
    cases hgrant : s.grant with
    | none =>
      rw [engineStep_wait hseq hgrant] at hstep
      cases hstep
      exact h
    | some granted =>
      obtain ⟨hgranted, hbusy⟩ := h.grant hgrant
      rw [engineStep_grant hseq hgrant] at hstep
      exact hgranted.runMicroStep hbusy hstep

/-- Settles O46: the edge keeps the invariant (`EngineInv.clock`), and so does the engine's part of the step. -/
theorem stepKeepsTheInvariant : Obligations.StepKeepsTheInvariant := by
  intro s t h hstep
  obtain ⟨s1, h1, hheld | hfree⟩ := h.clock
  · rw [step_of_held hheld] at hstep
    cases hstep
    exact h1
  · rw [step_of_free hfree] at hstep
    exact h1.engineStep hstep

/-! ## The engine never stops -/

theorem requireInitd_next (s : State) (b : Busy) (u : State) : ∃ t, requireInitd s b (.next u) = .next t := by
  unfold requireInitd
  split <;> exact ⟨_, rfl⟩

theorem wakeSteps_start_next (s : State) (b : Busy) (check : Option Status) : ∃ t, (wakeSteps s b check).start = .next t := by
  cases check with
  | some status => exact requireInitd_next s b _
  | none =>
    cases hpd : s.pd <;> simp only [wakeSteps, hpd, Bool.false_eq_true, if_false, if_true] <;> exact requireInitd_next s b _

theorem ownSteps_start_next (s : State) (b : Busy) (i : Instr) : ∃ t, (ownSteps s b i).start = .next t := by
  cases i with
  | init => exact ⟨_, rfl⟩
  | tare | calibrate | getWeight | getGain =>
    rcases hseg : b.seg with _ | k <;> simp only [ownSteps, hseg]
    · exact wakeSteps_start_next s b _
    · exact requireInitd_next s b _
  | setGain =>
    rcases hseg : b.seg with _ | _ | k <;> simp only [ownSteps, hseg]
    · exact requireInitd_next s b _
    · exact wakeSteps_start_next s b _
    · exact requireInitd_next s b _
  | getPd =>
    rcases hseg : b.seg with _ | k <;> simp only [ownSteps, hseg]
    · split
      · exact wakeSteps_start_next s b _
      · exact requireInitd_next s b _
    · exact requireInitd_next s b _
  | setPd | cleanup => exact requireInitd_next s b _

/-- A segment that reads frames has a micro-step after them. -/
theorem ownSteps_frameEnd_next {n : Nat} (h : (kindAt s.params.pdGetterWakes i b.seg).collects n = true) :
    ∃ t, (ownSteps s b i).frameEnd = .next t := by
  cases i with
  | init | setPd => exact ⟨_, rfl⟩
  | cleanup => cases h
  | tare | calibrate | getWeight =>
    rcases hseg : b.seg with _ | k <;> simp only [ownSteps, hseg] <;> exact ⟨_, rfl⟩
  | getGain =>
    rcases hseg : b.seg with _ | k <;> rw [hseg] at h
    · exact ⟨_, by simp only [ownSteps, hseg]; rfl⟩
    · cases h
  | setGain =>
    rcases hseg : b.seg with _ | _ | k <;> rw [hseg] at h
    · cases h
    · exact ⟨_, by simp only [ownSteps, hseg]; rfl⟩
    · exact ⟨_, by simp only [ownSteps, hseg]; rfl⟩
  | getPd =>
    rcases hseg : b.seg with _ | k <;> rw [hseg] at h
    · cases hwakes : s.params.pdGetterWakes
      · rw [hwakes] at h
        cases h
      · exact ⟨_, by rw [ownSteps_getPd_wake hseg hwakes]; rfl⟩
    · cases h

theorem eq_init_of_construct {w : Bool} {k : Nat} (h : kindAt w i k = .construct) : ∃ g, i = .init g := by
  cases i with
  | init g => exact ⟨g, rfl⟩
  | setPd | cleanup => cases h
  | tare | calibrate | getWeight | getGain => rcases k with _ | k <;> cases h
  | setGain => rcases k with _ | _ | k <;> cases h
  | getPd => cases w <;> rcases k with _ | k <;> cases h

theorem eq_setPd_of_power {w : Bool} {k : Nat} (h : kindAt w i k = .power) : ∃ v, i = .setPd v := by
  cases i with
  | setPd v => exact ⟨v, rfl⟩
  | init | cleanup => cases h
  | tare | calibrate | getWeight | getGain => rcases k with _ | k <;> cases h
  | setGain => rcases k with _ | _ | k <;> cases h
  | getPd => cases w <;> rcases k with _ | k <;> cases h

/-- Every micro-step at which a segment can stand is one that its command has. -/
theorem Running.exec_next (h : Running s b i kind) (hb : s.seq = .busy b) : ∃ t, exec i s = .next t := by
  have hfits := h.fits
  cases hpos : b.pos with
  | start =>
    rw [exec_start hb hpos]
    exact ownSteps_start_next s b i
  | initDrive =>
    have hkind : kind = .construct ∧ b.samples = [] := by simpa [SegmentKind.fits, hpos] using hfits
    obtain ⟨g, rfl⟩ := eq_init_of_construct (h.kindAt.trans hkind.1)
    exact ⟨_, exec_initDrive hb hpos _⟩
  | frameEnd =>
    rw [fits_of_inFrame (by rw [hpos]; rfl), ← h.kindAt] at hfits
    rw [exec_frameEnd hb hpos]
    exact ownSteps_frameEnd_next hfits
  | holdEnd =>
    have hkind : kind = .power ∧ b.samples = [] := by simpa [SegmentKind.fits, hpos] using hfits
    obtain ⟨v, rfl⟩ := eq_setPd_of_power (h.kindAt.trans hkind.1)
    exact ⟨_, exec_holdEnd hb hpos _⟩
  | wait => exact ⟨_, exec_wait hb hpos i⟩
  | bitHigh j => exact ⟨_, exec_of_lineStep hb (lineStep_bitHigh hpos) i⟩
  | bitLow j => exact ⟨_, exec_of_lineStep hb (lineStep_bitLow hpos) i⟩
  | bitSample j => exact ⟨_, exec_of_lineStep hb (lineStep_bitSample hpos) i⟩
  | pulseHigh n => exact ⟨_, exec_of_lineStep hb (lineStep_pulseHigh hpos) i⟩
  | pulseLow n => exact ⟨_, exec_of_lineStep hb (lineStep_pulseLow hpos) i⟩
  | holdHigh => exact ⟨_, exec_of_lineStep hb (lineStep_holdHigh hpos) i⟩

theorem EngineInv.runMicroStep_next (h : EngineInv s) (hb : s.seq = .busy b) : ∃ t, Machine.runMicroStep s b = .next t := by
  rcases (h.busy b hb).runMicroStep_cases with hillegal | ⟨i, kind, hrun, hexec⟩
  · exact ⟨_, hillegal⟩
  · rw [hexec]
    exact hrun.exec_next hb

theorem EngineInv.engineStep_next (h : EngineInv s) : ∃ t, Machine.engineStep s = .next t := by
  cases hseq : s.seq with
  | busy b =>
    cases hdelay : b.delaying with
    | true => exact ⟨_, engineStep_delaying hseq hdelay⟩
    | false =>
      rw [engineStep_busy hseq hdelay]
      exact h.runMicroStep_next hseq
  | idle =>
    cases hgrant : s.grant with
    | none => exact ⟨_, engineStep_wait hseq hgrant⟩
    | some granted =>
      obtain ⟨hgranted, hbusy⟩ := h.grant hgrant
      rw [engineStep_grant hseq hgrant]
      exact hgranted.runMicroStep_next hbusy

/-- Settles O47: a delay, a wait for commands and a grant go on, and a segment in progress stands at a micro-step it has. -/
theorem engineNeverStops : Obligations.EngineNeverStops := by
  intro s h
  obtain ⟨s1, h1, hheld | hfree⟩ := h.clock
  · exact ⟨s1, step_of_held hheld⟩
  · rw [step_of_free hfree]
    exact h1.engineStep_next

end Sys2Proof.Machine
end

section
/-! The clock line with one port (10_state.md R28): no other port's segment comes between two of a command, so what a segment
leaves in `PD` and `SCK` is what the next one finds. -/

namespace Sys2Proof.Machine

variable {s t : State} {b : Busy} {i : Instr} {kind : SegmentKind}

/-- Settles O49: the reset state is idle, with `INITD` 0. -/
theorem resetMeetsTheLineInvariant : Obligations.ResetMeetsTheLineInvariant where
  onePort := rfl
  between _ hinitd := nomatch hinitd
  next _ _ _ _ _ _ hport := nomatch hport
  inside _ _ _ _ _ hseq := nomatch hseq

/-! ## The segments -/

theorem Running.lineMatches (h : OnePortLine s) (hb : s.seq = .busy b) (hrun : Running s b i kind) : LineMatches s kind b := by
  obtain ⟨cmd, arg, hport, hdec⟩ := hrun.port
  exact h.inside b cmd arg i kind hb hport hdec hrun.kinds

/-- A segment goes on, or has begun, with the line as its kind has it. -/
theorem OnePortLine.goes_on (h : OnePortLine s) (hrun : Running s b i kind) {b' : Busy} (hseq : t.seq = .busy b')
    (hports : t.ports = s.ports) (hparams : t.params = s.params) (hport : b'.port = b.port) (hseg : b'.seg = b.seg)
    (hstart : b'.pos ≠ .start) (hmatch : LineMatches t kind b') : OnePortLine t where
  onePort := by rw [hports]; exact h.onePort
  between hidle _ := by
    rcases hidle with hidle | ⟨b'', hb, hpos⟩
    · rw [hseq] at hidle
      cases hidle
    · rw [hseq] at hb
      cases hb
      exact absurd hpos hstart
  next _ _ _ _ _ hidle := by
    rw [hseq] at hidle
    cases hidle
  inside b'' cmd arg i' kind' hb hpending hdec hkinds := by
    rw [hseq] at hb
    cases hb
    obtain ⟨cmd', arg', hpending', hdec'⟩ := hrun.port
    rw [hports, hport, hseg, hpending'] at hpending
    cases hpending
    rw [hdec'] at hdec
    cases hdec
    rw [hparams, hseg, hrun.kinds] at hkinds
    cases hkinds
    exact hmatch

/-- A segment ends: between segments `SCK` is `PD`, and a next segment that needs the chip awake finds it so. -/
theorem OnePortLine.release {p : Nat} {port port' : Port} (hlen : s.ports.length = 1) (hport : s.ports[p]? = some port)
    (hline : s.initd = true → s.sck = s.pd)
    (hnext : ∀ cmd arg k i kind, port' = .pending cmd arg k → decode cmd arg = .ok i →
      (segmentKinds s.params.pdGetterWakes i)[k]? = some kind → kind.awake = true → s.initd = true → s.pd = false) :
    OnePortLine (s.release p port') where
  onePort := by rw [State.release_ports, List.length_set]; exact hlen
  between _ hinitd := hline hinitd
  next cmd arg k i kind _ hpending := by
    obtain rfl : p = 0 := by
      have hlt := (List.getElem?_eq_some_iff.mp hport).1
      omega
    rw [State.release_ports, getElem?_set_same hport] at hpending
    exact hnext cmd arg k i kind (Option.some.inj hpending)
  inside _ _ _ _ _ hb := nomatch hb

theorem OnePortLine.release_done (hlen : s.ports.length = 1) (hrun : ∃ port, s.ports[b.port]? = some port)
    (hline : s.initd = true → s.sck = s.pd) (status : Status) (result : ResultWord) :
    OnePortLine (s.release b.port (.done status result)) := by
  obtain ⟨port, hport⟩ := hrun
  exact .release hlen hport hline fun _ _ _ _ _ hdone => nomatch hdone

theorem Running.some_port (hrun : Running s b i kind) : ∃ port, s.ports[b.port]? = some port :=
  have ⟨_, _, hport, _⟩ := hrun.port
  ⟨_, hport⟩

/-- The segment ends and the command goes on to its next one. -/
theorem OnePortLine.endSegment (hlen : s.ports.length = 1) (hrun : Running s b i kind) (hline : s.initd = true → s.sck = s.pd)
    (hnext : ∀ kind', (segmentKinds s.params.pdGetterWakes i)[b.seg + 1]? = some kind' → kind'.awake = true → s.pd = false) :
    OnePortLine (s.endSegment b) := by
  obtain ⟨cmd, arg, hport, hdec⟩ := hrun.port
  rw [State.endSegment_eq s b cmd arg _ hport]
  refine .release hlen hport hline fun cmd' arg' k i' kind' hpending hdec' hkinds hawake _ => ?_
  cases hpending
  rw [hdec] at hdec'
  cases hdec'
  exact hnext kind' hkinds hawake

theorem not_wakes_of_awake (h : kind.awake = true) : kind.wakes = false := by
  cases kind with
  | discard | sample => rfl
  | wake | store | answer | construct | power | teardown => cases h

/-- The first segment of no command needs the chip awake. -/
theorem not_awake_of_first {w : Bool} (h : (segmentKinds w i)[0]? = some kind) : kind.awake = false := by
  rw [← kindAt_of_segmentKinds h]
  cases i <;> cases w <;> rfl

/-- After SET_GAIN's store comes its auto-wake. -/
theorem not_awake_after_store {w : Bool} {g k : Nat} (hstore : kindAt w (.setGain g) k = .store)
    (h : (segmentKinds w (.setGain g))[k + 1]? = some kind) : kind.awake = false := by
  rw [← kindAt_of_segmentKinds h]
  rcases k with _ | _ | k
  · rfl
  · cases hstore
  · cases hstore

/-! ## The parts of a step that are no micro-step -/

theorem OnePortLine.resetEvent (h : OnePortLine s) : OnePortLine s.resetEvent where
  onePort := by simp [State.resetEvent, h.onePort]
  between _ hinitd := nomatch hinitd
  next cmd arg k _ _ _ hport := by
    have hempty := List.eq_of_mem_replicate (List.mem_of_getElem? hport)
    cases hempty
  inside _ _ _ _ _ hseq := nomatch hseq

theorem OnePortLine.afterPins (h : OnePortLine s) (pins : List PortPins) (rest : List Edge)
    (hbusy : ∀ b, s.seq = .busy b → BusyFits s b) : OnePortLine (s.afterPins pins rest) where
  onePort := (clockPorts_length pins s.ports).trans h.onePort
  between := h.between
  next cmd arg k i kind hidle hport hdec hkinds hawake hinitd := by
    have hport : (clockPorts pins s.ports)[0]? = some (.pending cmd arg k) := hport
    rw [clockPorts_getElem?] at hport
    split at hport
    · next pin port _ hold =>
      cases port with
      | pending cmd' arg' k' =>
        cases hport
        exact h.next cmd arg k i kind hidle hold hdec hkinds hawake hinitd
      | empty =>
        cases hvalid : pin.cmdValid <;> simp only [clockPort, hvalid, Bool.false_eq_true, if_false, if_true] at hport <;> cases hport
        rw [not_awake_of_first hkinds] at hawake
        cases hawake
      | done status result =>
        cases hready : pin.rspReady <;> simp [clockPort, hready] at hport
    · next port _ hold =>
      cases hport
      exact h.next cmd arg k i kind hidle hold hdec hkinds hawake hinitd
    all_goals cases hport
  inside b cmd arg i kind hb hport hdec hkinds := by
    obtain ⟨cmd', arg', hold, -⟩ := hbusy b hb
    have hkept := clockPorts_pending (pins := pins) hold
    have hport : (clockPorts pins s.ports)[b.port]? = some (.pending cmd arg b.seg) := hport
    rw [hkept] at hport
    cases hport
    exact h.inside b cmd arg i kind hb hold hdec hkinds

theorem OnePortLine.tick (h : OnePortLine s) (hb : s.seq = .busy b) : OnePortLine (s.tick b) where
  onePort := h.onePort
  between hidle hinitd := by
    rcases hidle with hidle | ⟨b', hb', hpos⟩
    · cases hidle
    · cases hb'
      exact h.between (.inr ⟨b, hb, hpos⟩) hinitd
  next _ _ _ _ _ hidle := nomatch hidle
  inside b' cmd arg i kind hb' := by
    cases hb'
    exact h.inside b cmd arg i kind hb

theorem OnePortLine.grant {s' : State} (h : OnePortLine s) (hidle : s.seq = .idle) (hgrant : s.grant = some (s', b)) :
    OnePortLine s' := by
  obtain ⟨cmd, arg, rest, n, hport, hpos, hdelay, hacc, hsamples, rfl⟩ := State.grant_spec hgrant
  refine ⟨h.onePort, fun _ hinitd => h.between (.inl hidle) hinitd, (fun _ _ _ _ _ hidle' => nomatch hidle'), ?_⟩
  intro b' cmd' arg' i kind hb hport' hdec hkinds
  cases hb
  obtain hzero : b.port = 0 := by
    have hlt := (List.getElem?_eq_some_iff.mp hport).1
    have hlen := h.onePort
    omega
  rw [LineMatches, hpos]
  intro hinitd hawake
  exact h.next cmd' arg' b.seg i kind hidle (hzero ▸ hport') hdec hkinds hawake hinitd

/-! ## Micro-steps -/

theorem lineMatches_of_inFrame (hpos : b.pos.inFrame = true) :
    LineMatches s kind b ↔ s.pd = kind.wakes ∧ (b.pos = .wait → s.sck = false) := by
  cases hp : b.pos with
  | start | initDrive | holdHigh | holdEnd =>
    rw [hp] at hpos
    cases hpos
  | wait => simp [LineMatches, hp, and_comm]
  | _ => simp [LineMatches, hp]

theorem pulsePos_ne_wait (n : Nat) : pulsePos n ≠ .wait := by
  unfold pulsePos
  split <;> exact fun h => nomatch h

theorem afterBit_ne_wait (gain : BitVec 8) (j : Fin 24) : afterBit gain j ≠ .wait := by
  unfold afterBit
  split
  · exact fun h => nomatch h
  · exact pulsePos_ne_wait _

/-- Only a wait goes on to a wait, and it leaves `SCK` as it is. -/
theorem lineStep_to_wait {b' : Busy} (h : lineStep s b = some t) (hb : t.seq = .busy b') (hwait : b'.pos = .wait) :
    b.pos = .wait ∧ t.sck = s.sck := by
  obtain ⟨v, rest, n, hd⟩ := s.doutRead_frame
  unfold lineStep at h
  split at h
  · next hpos =>
    refine ⟨hpos, ?_⟩
    cases h
    cases v <;> simp [waitReadyStep, hd]
  · cases h; cases hb; cases hwait
  · cases h; cases hb; cases hwait
  · rw [bitSampleStep, hd] at h
    cases h; cases hb
    exact absurd hwait (afterBit_ne_wait _ _)
  · cases h; cases hb; cases hwait
  · cases h; cases hb
    exact absurd hwait (pulsePos_ne_wait _)
  · cases h; cases hb; cases hwait
  all_goals cases h

theorem OnePortLine.lineStep (h : OnePortLine s) (hb : s.seq = .busy b) (hpulses : 0 < pulses s.gain) (hrun : Running s b i kind)
    (hline : lineStep s b = some t) : OnePortLine t := by
  have hmatch := hrun.lineMatches h hb
  obtain ⟨-, -, hpd, -, -, -, hports, hparams, -, -, p, d, acc, hseq⟩ := lineStep_frame hline
  obtain ⟨-, hmove⟩ := lineStep_lineFits hpulses hrun.line hline hseq
  rcases hmove with ⟨hframe, hframe'⟩ | ⟨hhold, hheld⟩
  · refine h.goes_on hrun hseq hports hparams rfl rfl (fun hstart => ?_) ((lineMatches_of_inFrame hframe').mpr ?_)
    · rw [hstart] at hframe'
      cases hframe'
    · obtain ⟨hwakes, hlow⟩ := (lineMatches_of_inFrame hframe).mp hmatch
      refine ⟨hpd.trans hwakes, fun hwait => ?_⟩
      obtain ⟨hpos, hsck⟩ := lineStep_to_wait hline hseq hwait
      exact hsck.trans (hlow hpos)
  · refine h.goes_on hrun hseq hports hparams rfl rfl (fun hstart => ?_) ?_
    · rw [hheld] at hstart
      cases hstart
    · rw [LineMatches, hhold] at hmatch
      rw [LineMatches, hheld]
      exact hpd.trans hmatch

theorem OnePortLine.ownStep (h : OnePortLine s) (hb : s.seq = .busy b) (hrun : Running s b i kind) (hstep : OwnStep s b i t) :
    OnePortLine t := by
  have hmatch := hrun.lineMatches h hb
  have hlen := h.onePort
  have hbetween (hpos : b.pos = .start) : s.initd = true → s.sck = s.pd := h.between (.inr ⟨b, hb, hpos⟩)
  have hframe (hpos : b.pos = .frameEnd) : s.sck = false ∧ s.pd = kind.wakes := by
    have hline := hrun.line
    rw [LineFits, hpos] at hline
    rw [LineMatches, hpos] at hmatch
    exact ⟨hline.2, hmatch⟩
  have hsampled (n : Nat) (hkind : kindAt s.params.pdGetterWakes i b.seg = .sample n) (hpos : b.pos = .frameEnd) :
      s.sck = s.pd := by
    obtain ⟨hsck, hpd⟩ := hframe hpos
    rw [hsck, hpd, ← hrun.kindAt, hkind]
    rfl
  cases hstep with
  | refuses _ hpos | answers _ hpos => exact .release_done hlen hrun.some_port (hbetween hpos) _ _
  | overflows _ n hkind hpos => exact .release_done hlen hrun.some_port (fun _ => hsampled n hkind hpos) _ _
  | finishes _ hkind hpos =>
    obtain ⟨hsck, hpd⟩ := hframe hpos
    refine .release_done hlen hrun.some_port (fun _ => ?_) _ _
    rw [hsck, hpd, ← hrun.kindAt, hkind]
  | initBegins g => exact h.goes_on hrun rfl rfl rfl rfl rfl (fun h => nomatch h) trivial
  | initWrites g hpos =>
    obtain rfl : SegmentKind.construct = kind := hrun.kindAt
    have hline := hrun.line
    rw [LineFits, hpos] at hline
    exact h.goes_on hrun rfl rfl rfl rfl rfl (fun h => nomatch h) ⟨hline, rfl⟩
  | wakeEnds _ hkind hpos _ hpd => exact .endSegment hlen hrun (hbetween hpos) fun _ _ _ => hpd
  | wakeBegins _ hkind _ _ hpd =>
    refine h.goes_on hrun rfl rfl rfl rfl rfl (fun h => nomatch h) ⟨rfl, ?_⟩
    rw [← hrun.kindAt, hkind]
    exact hpd
  | wakes _ hkind hpos =>
    obtain ⟨hsck, -⟩ := hframe hpos
    exact OnePortLine.endSegment (s := { s with pd := false }) hlen
      ⟨hrun.port, hrun.kinds, hrun.line, hrun.fits, hrun.samples, hrun.init⟩ (fun _ => hsck) fun _ _ _ => rfl
  | stores g hkind hpos =>
    refine OnePortLine.endSegment (s := { s with gain := gainPattern g }) (kind := kind) hlen
      ⟨hrun.port, hrun.kinds, by rw [LineFits, hpos]; trivial, hrun.fits, hrun.samples, hrun.init⟩ (hbetween hpos) ?_
    intro kind' hkinds hawake
    rw [not_awake_after_store hkind hkinds] at hawake
    cases hawake
  | reads _ hkind hpos hinitd =>
    rw [hrun.kindAt] at hkind
    rw [LineMatches, hpos] at hmatch
    have hpd : s.pd = false := hmatch hinitd hkind
    exact h.goes_on hrun rfl rfl rfl rfl rfl (fun h => nomatch h)
      ⟨(hbetween hpos hinitd).trans hpd, hpd.trans (not_wakes_of_awake hkind).symm⟩
  | samples _ n x _ hpos => exact h.goes_on hrun rfl rfl rfl rfl rfl (fun h => nomatch h) (hframe hpos)
  | tares n m hkind hpos offset =>
    exact OnePortLine.release_done (s := { s with offset := offset }) hlen hrun.some_port (fun _ => hsampled m hkind hpos) _ _
  | calibrates n m w sc hkind hpos =>
    exact OnePortLine.release_done (s := { s with scale := sc }) hlen hrun.some_port (fun _ => hsampled m hkind hpos) _ _
  | powersDown v _ _ hpd => exact h.goes_on hrun rfl rfl rfl rfl rfl (fun h => nomatch h) hpd
  | powerDown v hpos =>
    have hline := hrun.line
    rw [LineFits, hpos] at hline
    exact OnePortLine.release_done (s := { s with pd := true }) hlen hrun.some_port (fun _ => hline.2) _ _
  | powersUp v _ _ hpd =>
    obtain rfl : SegmentKind.power = kind := hrun.kindAt
    exact h.goes_on hrun rfl rfl rfl rfl rfl (fun h => nomatch h) ⟨rfl, hpd⟩
  | powerUp v hpos =>
    exact OnePortLine.release_done (s := { s with pd := false }) hlen hrun.some_port (fun _ => (hframe hpos).1) _ _
  | cleansUp =>
    exact OnePortLine.release_done (s := { s with sckOe := false, sck := false, initd := false }) hlen hrun.some_port
      (fun hinitd => nomatch hinitd) _ _

theorem OnePortLine.runMicroStep (h : OnePortLine s) (hinv : EngineInv s) (hb : s.seq = .busy b)
    (hstep : runMicroStep s b = .next t) : OnePortLine t := by
  have hbusy := hinv.busy b hb
  obtain ⟨cmd, arg, hport, -, hpos⟩ := id hbusy
  cases hdec : decode cmd arg with
  | error e =>
    rw [hdec] at hpos
    rw [runMicroStep_of_illegal hport hdec] at hstep
    cases hstep
    exact .release_done h.onePort ⟨_, hport⟩ (h.between (.inr ⟨b, hb, hpos⟩)) _ _
  | ok i =>
    obtain ⟨kind, hrun⟩ := hbusy.running hport hdec
    rw [runMicroStep_of_ok hport hdec] at hstep
    rcases exec_cases hb hstep with hline | hown
    · exact h.lineStep hb (pulses_pos hinv.gain) hrun hline
    · exact h.ownStep hb hrun hown

theorem OnePortLine.engineStep (h : OnePortLine s) (hinv : EngineInv s) (hstep : engineStep s = .next t) : OnePortLine t := by
  cases hseq : s.seq with
  | busy b =>
    cases hdelay : b.delaying with
    | true =>
      rw [engineStep_delaying hseq hdelay] at hstep
      cases hstep
      exact h.tick hseq
    | false =>
      rw [engineStep_busy hseq hdelay] at hstep
      exact h.runMicroStep hinv hseq hstep
  | idle =>
    cases hgrant : s.grant with
    | none =>
      rw [engineStep_wait hseq hgrant] at hstep
      cases hstep
      exact h
    | some granted =>
      obtain ⟨hgranted, hbusy⟩ := hinv.grant hgrant
      rw [engineStep_grant hseq hgrant] at hstep
      exact (h.grant hseq hgrant).runMicroStep hgranted hbusy hstep

/-- Settles O48: the edge, the grant, a delay and every micro-step keep the line invariant (`OnePortLine.ownStep`). -/
theorem onePortKeepsTheLineWithPd : Obligations.OnePortKeepsTheLineWithPd := by
  intro s t hinv h hstep
  cases hin : s.inputs with
  | nil =>
    rw [step_quiet hin] at hstep
    exact h.engineStep hinv hstep
  | cons e rest =>
    cases hrst : e.rst with
    | true =>
      rw [step_of_held (State.clock_of_reset hin hrst)] at hstep
      cases hstep
      exact OnePortLine.resetEvent (s := { s with inputs := rest }) ⟨h.onePort, h.between, h.next, h.inside⟩
    | false =>
      have hpins := h.afterPins e.pins rest hinv.busy
      have hclock := State.clock_of_edge hin hrst
      cases hstall : e.stall with
      | true =>
        rw [hstall, if_pos rfl] at hclock
        rw [step_of_held hclock] at hstep
        cases hstep
        exact hpins
      | false =>
        rw [hstall, if_neg Bool.false_ne_true] at hclock
        rw [step_of_free hclock] at hstep
        exact hpins.engineStep (hinv.afterPins e.pins rest) hstep

end Sys2Proof.Machine
end

section
/-! Runs inside a segment (00_scope.md R12, 40_bit_engine.md R103 to R108): a delay, a write of the clock line, a data bit, the trailing
pulses, a frame. The host does nothing, so a step is the engine's. -/

namespace Sys2Proof.Machine

variable {s t u : State} {b : Busy} {i : Instr}

/-! ## Runs with their rising edges -/

/-- Some number of steps leads from `s` to `t`, and PD_SCK rises `edges` times in them. -/
def Runs (s t : State) (edges : Nat) : Prop := ∃ k, steps k s = .next t ∧ risingEdges k s = edges

theorem Runs.trans {m n : Nat} (h : Runs s t m) (h' : Runs t u n) : Runs s u (m + n) := by
  obtain ⟨k, hk, rfl⟩ := h
  obtain ⟨l, hl, rfl⟩ := h'
  exact ⟨k + l, by rw [steps_add k l s t hk, hl], risingEdges_add k l s t hk⟩

theorem Runs.of_step (h : step s = .next t) : Runs s t (if !s.sck && t.sck then 1 else 0) :=
  ⟨1, by simp only [steps, h], by simp only [risingEdges, h, Nat.add_zero]⟩

/-- A step that does not raise the line. -/
theorem Runs.of_level_step (h : step s = .next t) (hsck : t.sck = false ∨ t.sck = s.sck) : Runs s t 0 := by
  have hrun := Runs.of_step h
  rwa [if_neg] at hrun
  rcases hsck with hlow | hsame
  · simp [hlow]
  · simp [hsame]

/-! ## A delay -/

theorem step_delaying (hb : s.seq = .busy b) (hdelay : b.delaying = true) (hin : s.inputs = []) : step s = .next (s.tick b) :=
  (step_quiet hin).trans (engineStep_delaying hb hdelay)

theorem Busy.eq_with_delaying (hdelay : b.delaying = true) : { b with delaying := true } = b := by
  rw [← hdelay]

/-- A tick before the last unit of a delay. -/
theorem State.tick_eq_timer (hb : s.seq = .busy b) (hdelay : b.delaying = true) (hmore : 1 < s.timer) :
    s.tick b = { s with timer := s.timer - 1 } := by
  rw [State.tick, decide_eq_true hmore, Busy.eq_with_delaying hdelay, ← hb]

/-- The last tick of a delay. -/
theorem State.tick_eq_end (hlast : s.timer ≤ 1) : s.tick b = { s with timer := 0, seq := .busy { b with delaying := false } } := by
  rw [State.tick, decide_eq_false (by omega), show s.timer - 1 = 0 by omega]

theorem steps_succ (k : Nat) (h : steps k s = .next t) : steps (k + 1) s = step t := by
  rw [steps_add k 1 s t h]
  simp only [steps]
  cases step t <;> rfl

theorem steps_delaying (hb : s.seq = .busy b) (hdelay : b.delaying = true) (hin : s.inputs = []) (k : Nat) (hk : k < s.timer) :
    steps k s = .next { s with timer := s.timer - k } := by
  induction k with
  | zero => rfl
  | succ k ih =>
    rw [steps_succ k (ih (by omega)), step_delaying (s := { s with timer := s.timer - k }) hb hdelay hin,
      State.tick_eq_timer (s := { s with timer := s.timer - k }) hb hdelay (show 1 < s.timer - k by omega)]
    rfl

/-- Settles O18: a tick takes one unit and keeps the delay running until the last (`State.tick_eq_timer`, `State.tick_eq_end`). -/
theorem delayLastsItsTime : Obligations.DelayLastsItsTime := by
  intro s b hb hdelay hin hpos
  refine ⟨steps_delaying hb hdelay hin, ?_⟩
  obtain ⟨n, hn⟩ : ∃ n, s.timer = n + 1 := ⟨s.timer - 1, by omega⟩
  rw [hn, steps_succ n (steps_delaying hb hdelay hin n (by omega)),
    step_delaying (s := { s with timer := s.timer - n }) hb hdelay hin,
    State.tick_eq_end (s := { s with timer := s.timer - n }) (show s.timer - n ≤ 1 by omega)]

theorem runs_delay (hb : s.seq = .busy b) (hdelay : b.delaying = true) (hin : s.inputs = []) :
    Runs s { s with timer := 0, seq := .busy { b with delaying := false } } 0 := by
  induction hn : s.timer generalizing s with
  | zero =>
    rw [← State.tick_eq_end (by omega)]
    exact .of_level_step (step_delaying hb hdelay hin) (.inr rfl)
  | succ n ih =>
    have hstep := Runs.of_level_step (step_delaying hb hdelay hin) (.inr rfl)
    by_cases hlast : s.timer ≤ 1
    · rwa [State.tick_eq_end hlast] at hstep
    · rw [State.tick_eq_timer hb hdelay (by omega)] at hstep
      exact hstep.trans (ih (s := { s with timer := s.timer - 1 }) hb hin (by simp only; omega))

/-! ## A segment in progress -/

/-- The segment `b` of the command `i` is at a micro-step, and the host does nothing. -/
structure Working (s : State) (b : Busy) (i : Instr) : Prop where
  busy : s.seq = .busy b
  free : b.delaying = false
  quiet : s.inputs = []
  port : ∃ cmd arg k, s.ports[b.port]? = some (.pending cmd arg k) ∧ decode cmd arg = .ok i

theorem Working.step_eq_exec (h : Working s b i) : step s = exec i s := by
  obtain ⟨cmd, arg, k, hport, hdec⟩ := h.port
  rw [step_quiet h.quiet, engineStep_busy h.busy h.free, runMicroStep_of_ok hport hdec]

/-- A micro-step that does not raise the line. -/
theorem Working.runs (h : Working s b i) (hexec : exec i s = .next t) (hsck : t.sck = false ∨ t.sck = s.sck) : Runs s t 0 :=
  .of_level_step (h.step_eq_exec.trans hexec) hsck

/-- The segment goes on at `p`. -/
theorem Working.goto (h : Working s b i) {b' : Busy} (p : Pos) (hports : t.ports = s.ports) (hin : t.inputs = s.inputs)
    (hport : b'.port = b.port) : Working (t.goto b' p) { b' with pos := p, delaying := false } i :=
  ⟨rfl, rfl, hin.trans h.quiet, by rw [State.goto_ports, hports, hport]; exact h.port⟩

/-! ## The bit engine -/

/-- The state with the line at `sck`, the delay timer at `timer`, and the samples `dout` to come: what a line sequence changes. -/
def State.lineAt (s : State) (sck : Level) (timer : Nat) (dout : List Level) : State :=
  { s with sck := sck, timer := timer, dout := dout }

/-- A falling edge, or a write of the level that the line has, with the delay after it. -/
theorem Working.writes_low (h : Working s b i) {n : Nat} {p : Pos}
    (hline : lineStep s b = some ((s.sckWrite false).delayThen b n p)) : Runs s ((s.lineAt false 0 s.dout).goto b p) 0 :=
  (h.runs (exec_of_lineStep h.busy hline i) (.inl rfl)).trans
    (runs_delay (s := (s.sckWrite false).delayThen b n p) rfl rfl h.quiet)

/-- A rising edge, unless the line is high, with the delay after it. -/
theorem Working.writes_high (h : Working s b i) {n : Nat} {p : Pos}
    (hline : lineStep s b = some ((s.sckWrite true).delayThen b n p)) :
    Runs s ((s.lineAt true 0 s.dout).goto b p) (if s.sck then 0 else 1) := by
  have hedge := Runs.of_step (h.step_eq_exec.trans (exec_of_lineStep h.busy hline i))
  have hrun := hedge.trans (runs_delay (s := (s.sckWrite true).delayThen b n p) rfl rfl h.quiet)
  rw [State.delayThen_sck, State.sckWrite_sck] at hrun
  cases hsck : s.sck <;> rw [hsck] at hrun <;> exact hrun

/-- A data bit: its pulse, and its sample shifted into the accumulator. -/
theorem Working.reads_bit (h : Working s b i) {j : Fin 24} (hpos : b.pos = .bitHigh j) {v : Level} {rest : List Level}
    (hdout : s.dout = v :: rest) :
    Runs s ((s.lineAt false 0 rest).goto { b with acc := accumulate b.acc v } (afterBit s.gain j)) (if s.sck then 0 else 1) := by
  have hhigh := h.writes_high (lineStep_bitHigh hpos)
  have h1 : Working ((s.lineAt true 0 s.dout).goto b (.bitLow j)) { b with pos := .bitLow j, delaying := false } i :=
    h.goto _ rfl rfl rfl
  have hlow : Runs _ ((s.lineAt false 0 s.dout).goto b (.bitSample j)) 0 := h1.writes_low (lineStep_bitLow rfl)
  have h2 : Working ((s.lineAt false 0 s.dout).goto b (.bitSample j)) { b with pos := .bitSample j, delaying := false } i :=
    h.goto _ rfl rfl rfl
  have hbit := exec_of_lineStep h2.busy (lineStep_bitSample rfl) i
  rw [bitSampleStep_laidOut (s := (s.lineAt false 0 s.dout).goto b (.bitSample j)) hdout] at hbit
  exact (hhigh.trans hlow).trans (h2.runs hbit (.inr rfl))

/-- The data bits that are left, from a low line. -/
theorem Working.reads_bits (bits : List Level) (rest : List Level) (h : Working s b i) {j : Fin 24} (hpos : b.pos = .bitHigh j)
    (hlen : j.val + (bits.length + 1) = 24) (hsck : s.sck = false) {v : Level} (hdout : s.dout = v :: (bits ++ rest)) :
    Runs s ((s.lineAt false 0 rest).goto { b with acc := (v :: bits).foldl accumulate b.acc } (pulsePos (pulses s.gain)))
      (bits.length + 1) := by
  induction bits generalizing s b j v with
  | nil =>
    have hbit := h.reads_bit hpos hdout
    rwa [afterBit_last _ (by simp at hlen; omega), hsck] at hbit
  | cons w bits ih =>
    simp only [List.length_cons] at hlen
    have hnext : j.val + 1 < 24 := by omega
    have hbit := h.reads_bit hpos hdout
    rw [afterBit_of_lt _ hnext, hsck, if_neg Bool.false_ne_true] at hbit
    have hleft := ih (h.goto (t := s.lineAt false 0 (w :: (bits ++ rest))) (b' := { b with acc := accumulate b.acc v })
      (.bitHigh ⟨j.val + 1, hnext⟩) rfl rfl rfl) rfl (by simp only; omega) rfl rfl
    rw [List.length_cons, Nat.add_comm (bits.length + 1) 1]
    exact hbit.trans hleft

/-- The trailing pulses that are left, from a low line. -/
theorem Working.pulses_left (n : Nat) (h : Working s b i) (hpos : b.pos = .pulseHigh (n + 1)) (hsck : s.sck = false) :
    Runs s ((s.lineAt false 0 s.dout).goto b .frameEnd) (n + 1) := by
  induction n generalizing s b with
  | zero =>
    have hhigh := h.writes_high (lineStep_pulseHigh hpos)
    have h1 : Working ((s.lineAt true 0 s.dout).goto b (.pulseLow 1)) { b with pos := .pulseLow 1, delaying := false } i :=
      h.goto _ rfl rfl rfl
    rw [hsck] at hhigh
    exact hhigh.trans (h1.writes_low (lineStep_pulseLow rfl))
  | succ n ih =>
    have hhigh := h.writes_high (lineStep_pulseHigh hpos)
    have h1 : Working ((s.lineAt true 0 s.dout).goto b (.pulseLow (n + 2))) { b with pos := .pulseLow (n + 2), delaying := false } i :=
      h.goto _ rfl rfl rfl
    have hlow : Runs _ ((s.lineAt false 0 s.dout).goto b (.pulseHigh (n + 1))) 0 :=
      h1.writes_low (p := pulsePos (n + 2 - 1)) (lineStep_pulseLow rfl)
    have hleft := ih (h.goto (t := s.lineAt false 0 s.dout) (b' := b) (.pulseHigh (n + 1)) rfl rfl rfl) rfl rfl
    rw [hsck] at hhigh
    rw [Nat.add_comm (n + 1) 1]
    exact (hhigh.trans hlow).trans hleft

/-- The wait, through the samples that are not ready. -/
theorem Working.waits (polls : Nat) (rest : List Level) (h : Working s b i) (hpos : b.pos = .wait)
    (hdout : s.dout = List.replicate polls true ++ false :: rest) :
    ∃ n, Runs s ((s.lineAt s.sck n rest).goto { b with acc := 0 } (.bitHigh 0)) 0 := by
  induction polls generalizing s b with
  | zero =>
    have hready := exec_wait h.busy hpos i
    rw [waitReadyStep_ready (rest := rest) hdout] at hready
    exact ⟨s.timer, h.runs hready (.inr rfl)⟩
  | succ polls ih =>
    have hpoll := exec_wait h.busy hpos i
    rw [waitReadyStep_notReady (rest := List.replicate polls true ++ false :: rest) hdout] at hpoll
    have hdelay := (h.runs hpoll (.inr rfl)).trans (runs_delay rfl rfl h.quiet)
    obtain ⟨n, hrest⟩ := ih (h.goto (t := s.lineAt s.sck 0 (List.replicate polls true ++ false :: rest)) (b' := b) .wait rfl rfl rfl)
      rfl rfl
    exact ⟨n, hdelay.trans hrest⟩

theorem frameBits_cons (p : FramePattern) : ∃ v bits, frameBits p = v :: bits ∧ bits.length = 23 := by
  have hlen := frameBits_length p
  cases hbits : frameBits p with
  | nil => simp [hbits] at hlen
  | cons v bits => exact ⟨v, bits, rfl, by simpa [hbits] using hlen⟩

/-- R108: a frame is read. -/
theorem Working.reads_frame (h : Working s b i) (hpos : b.pos = .wait) (hgain : s.gain = 128 ∨ s.gain = 64 ∨ s.gain = 32)
    {polls : Nat} {p : FramePattern} {rest : List Level} (hdout : s.dout = frameSamples polls p ++ rest) :
    Runs s ((s.lineAt false 0 rest).goto { b with acc := p } .frameEnd) ((if s.sck then 23 else 24) + pulses s.gain) := by
  obtain ⟨v, bits, hbits, hlen⟩ := frameBits_cons p
  obtain ⟨m, hm⟩ : ∃ m, pulses s.gain = m + 1 := ⟨pulses s.gain - 1, by have := pulses_pos hgain; omega⟩
  obtain ⟨w, bits, rfl⟩ : ∃ w tail, bits = w :: tail := List.exists_cons_of_length_eq_add_one hlen
  rw [List.length_cons] at hlen
  have hacc : (w :: bits).foldl accumulate (accumulate 0 v) = p := by
    rw [← List.foldl_cons, ← hbits, foldl_accumulate_frameBits]
  rw [frameSamples, hbits, List.append_assoc, List.cons_append] at hdout
  obtain ⟨n, hwait⟩ := h.waits polls _ hpos hdout
  have h1 := h.goto (t := s.lineAt s.sck n (v :: w :: bits ++ rest)) (b' := { b with acc := 0 }) (.bitHigh 0) rfl rfl rfl
  have hfirst := h1.reads_bit rfl (v := v) (rest := w :: bits ++ rest) rfl
  have h2 := h.goto (t := s.lineAt false 0 (w :: bits ++ rest)) (b' := { b with acc := accumulate 0 v }) (.bitHigh 1) rfl rfl rfl
  have hothers := h2.reads_bits bits rest rfl (by simp only [hlen]; rfl) rfl rfl
  have h3 := h.goto (t := s.lineAt false 0 rest) (b' := { b with acc := p }) (.pulseHigh (m + 1)) rfl rfl rfl
  have hpulses := h3.pulses_left m rfl rfl
  have hedges : (if s.sck then 23 else 24) + pulses s.gain = 0 + (if s.sck then 0 else 1) + (bits.length + 1) + (m + 1) := by
    split <;> omega
  rw [hedges]
  rw [hacc] at hothers
  have hgain' : pulsePos (pulses s.gain) = .pulseHigh (m + 1) := by rw [hm, pulsePos_succ]
  have hothers : Runs _ ((s.lineAt false 0 rest).goto { b with acc := p } (pulsePos (pulses s.gain))) _ := hothers
  rw [hgain'] at hothers
  exact ((hwait.trans hfirst).trans hothers).trans hpulses

/-- Settles O20: the wait, the 24 data bits and the trailing pulses, each with its edges (`Working.reads_frame`). -/
theorem readFrameReadsThePattern : Obligations.ReadFrameReadsThePattern := by
  intro s b cmd arg seg i polls p rest hb hpos hdelay hport hdec hin hgain hdout
  exact Working.reads_frame ⟨hb, hdelay, hin, cmd, arg, seg, hport, hdec⟩ hpos hgain hdout

/-- Settles O21: the hold is a delay of `T_PD_HOLD`, and a delay changes the timer alone until it ends. -/
theorem powerDownHoldIsAtLeastSixtyMicroseconds : Obligations.PowerDownHoldIsAtLeastSixtyMicroseconds := by
  intro i s b hb hpos hin hok
  obtain ⟨-, -, -, -, -, hhold⟩ := (params_ok_iff _).mp hok
  refine ⟨hhold, _, exec_of_lineStep hb (lineStep_holdHigh hpos) i, fun k hk => ?_⟩
  exact ⟨_, steps_delaying (s := (s.sckWrite true).delayThen b s.params.tPdHold .holdEnd) rfl rfl hin k hk, rfl, rfl, rfl⟩

end Sys2Proof.Machine
end

section
/-! Whole commands (source properties 4 to 7). A command that is alone runs segment after segment: the arbiter has no choice but its
port, each segment runs to its end, and what a segment leaves the next one finds. -/

namespace Sys2Proof.Machine

variable {s t u : State} {b : Busy} {i : Instr} {p k : Nat} {cmd : CmdWord} {arg : ArgWord}

/-! ## Between two segments -/

/-- Port `p` alone is pending, with segment `k` of the command `i` next; no segment is in progress and the host does nothing. -/
structure Ready (s : State) (p : Nat) (cmd : CmdWord) (arg : ArgWord) (i : Instr) (k : Nat) : Prop where
  idle : s.seq = .idle
  quiet : s.inputs = []
  only : s.pendingPorts = [p]
  port : s.ports[p]? = some (.pending cmd arg k)
  dec : decode cmd arg = .ok i

theorem Alone.ready (h : Alone s p i) : ∃ cmd arg, Ready s p cmd arg i 0 :=
  have ⟨cmd, arg, hport, hdec⟩ := h.holds
  ⟨cmd, arg, h.idle, h.quiet, h.only, hport, hdec⟩

/-- Segment `k` of port `p`'s command, at its first micro-step. -/
def firstOf (p k : Nat) : Busy := ⟨p, k, .start, false, 0, []⟩

/-- The state after a grant of segment `k` of port `p`'s command. -/
def State.begun (s : State) (p k : Nat) (grants : List Nat) (draws : Nat) : State :=
  { s with grants := grants, draws := draws, seq := .busy (firstOf p k) }

theorem Ready.working (h : Ready s p cmd arg i k) (grants : List Nat) (draws : Nat) :
    Working (s.begun p k grants draws) (firstOf p k) i :=
  ⟨rfl, rfl, h.quiet, cmd, arg, k, h.port, h.dec⟩

/-- The next step grants the port and makes the segment's first micro-step. -/
theorem Ready.step_eq (h : Ready s p cmd arg i k) :
    ∃ grants draws, step s = (ownSteps (s.begun p k grants draws) (firstOf p k) i).start := by
  obtain ⟨s', b, hgrant⟩ := State.grant_of_pending (s := s) (by rw [h.only]; exact List.cons_ne_nil _ _)
  obtain ⟨cmd', arg', rest, n, hport, hpos, hdelay, hacc, hsamples, rfl⟩ := State.grant_spec hgrant
  obtain rfl : b.port = p := by
    have hmem := State.mem_pendingPorts.mpr ⟨cmd', arg', b.seg, hport⟩
    rw [h.only] at hmem
    exact List.mem_singleton.mp hmem
  rw [h.port] at hport
  cases hport
  have hfirst : firstOf b.port b.seg = b := by
    obtain ⟨port, seg, pos, delaying, acc, samples⟩ := b
    cases hpos; cases hdelay; cases hacc; cases hsamples
    rfl
  refine ⟨rest, n, ?_⟩
  rw [step_quiet h.quiet, engineStep_grant h.idle hgrant, State.begun, hfirst]
  exact (runMicroStep_of_ok (s := { s with grants := rest, draws := n, seq := .busy b }) h.port h.dec).trans (exec_start rfl hpos i)

/-- A first micro-step that does not raise the line. -/
theorem Ready.begins (h : Ready s p cmd arg i k) {t : List Nat → Nat → State}
    (hstart : ∀ grants draws, (ownSteps (s.begun p k grants draws) (firstOf p k) i).start = .next (t grants draws))
    (hsck : ∀ grants draws, (t grants draws).sck = false ∨ (t grants draws).sck = s.sck) :
    ∃ grants draws, Runs s (t grants draws) 0 := by
  obtain ⟨grants, draws, hstep⟩ := h.step_eq
  exact ⟨grants, draws, .of_level_step (hstep.trans (hstart grants draws)) (hsck grants draws)⟩

/-! ## What a segment leaves -/

/-- A segment of port `p` has run from `s` to its end in `t`: the registers, the samples to come, and the port's state it leaves. -/
structure Leaves (s t : State) (p : Nat) (r : Registers) (rest : List Level) (port : Port) : Prop where
  registers : t.registers = r
  dout : t.dout = rest
  ports : t.ports = s.ports.set p port
  idle : t.seq = .idle
  params : t.params = s.params
  quiet : t.inputs = []

/-- From `s` a run with so many rising edges leaves these. -/
def RunsTo (s : State) (p : Nat) (r : Registers) (rest : List Level) (edges : Nat) (port : Port) : Prop :=
  ∃ t, Runs s t edges ∧ Leaves s t p r rest port

theorem RunsTo.completes {r : Registers} {rest : List Level} {edges : Nat} {status : Status} {result : ResultWord}
    (h : RunsTo s p r rest edges (.done status result)) : Completes s p r rest edges status result := by
  obtain ⟨t, ⟨k, hsteps, hedges⟩, hleaves⟩ := h
  exact ⟨k, t, hsteps, hedges, hleaves.registers, hleaves.dout, hleaves.ports, hleaves.idle, hleaves.params⟩

theorem pendingFrom_set_pending {n j : Nat} {ports : List Port} (hport : ports[j]? = some (.pending cmd arg k)) (k' : Nat) :
    pendingFrom n (ports.set j (.pending cmd arg k')) = pendingFrom n ports := by
  induction ports generalizing n j with
  | nil => rfl
  | cons port ports ih =>
    cases j with
    | zero =>
      obtain rfl : port = .pending cmd arg k := Option.some.inj hport
      rfl
    | succ j =>
      have htail := ih (n := n + 1) (j := j) hport
      cases port <;> simp only [List.set_cons_succ, pendingFrom, htail]

/-- The port that a segment leaves pending is still the only one. -/
theorem Leaves.ready {r : Registers} {rest : List Level} {k' : Nat} (h : Ready s p cmd arg i k)
    (hleaves : Leaves s t p r rest (.pending cmd arg k')) : Ready t p cmd arg i k' where
  idle := hleaves.idle
  quiet := hleaves.quiet
  only := by rw [State.pendingPorts, hleaves.ports, pendingFrom_set_pending h.port]; exact h.only
  port := by rw [hleaves.ports, getElem?_set_same h.port]
  dec := h.dec

/-- One segment, and then the rest of the command. -/
theorem RunsTo.andThen {r r' : Registers} {rest rest' : List Level} {m n k' : Nat} {port : Port} (h : Ready s p cmd arg i k)
    (hrun : RunsTo s p r rest m (.pending cmd arg k'))
    (hnext : ∀ t, Ready t p cmd arg i k' → t.registers = r → t.dout = rest → RunsTo t p r' rest' n port) :
    RunsTo s p r' rest' (m + n) port := by
  obtain ⟨t, hrun, hleaves⟩ := hrun
  obtain ⟨u, hrun', hleaves'⟩ := hnext t (hleaves.ready h) hleaves.registers hleaves.dout
  refine ⟨u, hrun.trans hrun', hleaves'.registers, hleaves'.dout, ?_, hleaves'.idle, hleaves'.params.trans hleaves.params,
    hleaves'.quiet⟩
  rw [hleaves'.ports, hleaves.ports, List.set_set]

/-! ## Frames of a segment -/

/-- The state after a frame `f` has been read in the segment `b`. -/
def State.afterFrame (s : State) (b : Busy) (f : FramePattern) (rest : List Level) : State :=
  (s.lineAt false 0 rest).goto { b with acc := f } .frameEnd

/-- The segment `b` after a frame `f` has been read in it. -/
def Busy.afterFrame (b : Busy) (f : FramePattern) : Busy := { b with acc := f, pos := .frameEnd, delaying := false }

/-- A frame and the command's micro-step after it. -/
theorem Working.frame_then (h : Working s b i) (hpos : b.pos = .wait) (hgain : s.gain = 128 ∨ s.gain = 64 ∨ s.gain = 32)
    {polls : Nat} {f : FramePattern} {rest : List Level} (hdout : s.dout = frameSamples polls f ++ rest)
    (hend : (ownSteps (s.afterFrame b f rest) (b.afterFrame f) i).frameEnd = .next t)
    (hsck : t.sck = false) : Runs s t ((if s.sck then 23 else 24) + pulses s.gain) := by
  have h1 := h.goto (t := s.lineAt false 0 rest) (b' := { b with acc := f }) .frameEnd rfl rfl rfl
  exact (h.reads_frame hpos hgain hdout).trans (h1.runs ((exec_frameEnd rfl rfl i).trans hend) (.inl hsck))

/-- The engine is as in `s` but for the sequencer, the timer, and the samples read. -/
structure ReadFrom (s y : State) (rest : List Level) : Prop where
  registers : y.registers = s.registers
  ports : y.ports = s.ports
  params : y.params = s.params
  inputs : y.inputs = s.inputs
  dout : y.dout = rest

theorem ReadFrom.trans {y z : State} {rest rest' : List Level} (h : ReadFrom s y rest) (h' : ReadFrom y z rest') :
    ReadFrom s z rest' :=
  ⟨h'.registers.trans h.registers, h'.ports.trans h.ports, h'.params.trans h.params, h'.inputs.trans h.inputs, h'.dout⟩

theorem registers_low (h : s.sck = false) : { s.registers with sck := false } = s.registers := by
  rw [← h]
  rfl

theorem readFrom_afterFrame (h : s.sck = false) (b : Busy) (f : FramePattern) (rest : List Level) :
    ReadFrom s (s.afterFrame b f rest) rest :=
  ⟨registers_low h, rfl, rfl, rfl, rfl⟩

section
variable {n : Nat} {x : BitVec 24 → FramePattern → Int} {finish : State → Busy → List Int → State}

theorem framesSamples_cons (f : Nat × FramePattern) (frames : List (Nat × FramePattern)) :
    framesSamples (f :: frames) = frameSamples f.1 f.2 ++ framesSamples frames := List.flatMap_cons

/-- The frames of a sampling segment, from the wait for the first to what the command makes of them all. -/
theorem Working.collects
    (hown : ∀ y c, c.seg = 1 → (ownSteps y c i).frameEnd = .next (collectSample n (x y.offset c.acc) y c (finish y c)))
    (hfinish : ∀ y c l, (finish y c l).sck = y.sck) (frames : List (Nat × FramePattern)) (rest : List Level)
    {f : Nat × FramePattern} (h : Working s b i) (hpos : b.pos = .wait) (hseg : b.seg = 1) (hsck : s.sck = false)
    (hgain : s.gain = 128 ∨ s.gain = 64 ∨ s.gain = 32) (hlen : b.samples.length + (frames.length + 1) = n)
    (hdout : s.dout = frameSamples f.1 f.2 ++ (framesSamples frames ++ rest)) :
    ∃ y c, ReadFrom s y rest ∧ c.port = b.port ∧
      Runs s (finish y c (b.samples ++ (f :: frames).map fun g => x s.offset g.2)) ((frames.length + 1) * (24 + pulses s.gain)) := by
  induction frames generalizing s b f with
  | nil =>
    have hlast := (hown (s.afterFrame b f.2 rest) (b.afterFrame f.2) hseg).trans
      (congrArg _ (collectSample_last (b := b.afterFrame f.2) hlen))
    have hrun := h.frame_then hpos hgain hdout hlast (hfinish _ _ _)
    rw [hsck] at hrun
    refine ⟨s.afterFrame b f.2 rest, b.afterFrame f.2, readFrom_afterFrame hsck b f.2 rest, rfl, ?_⟩
    rw [List.length_nil, Nat.zero_add, Nat.one_mul]
    exact hrun
  | cons f' frames ih =>
    rw [List.length_cons] at hlen ⊢
    rw [framesSamples_cons, List.append_assoc] at hdout
    generalize hlater : frameSamples f'.1 f'.2 ++ (framesSamples frames ++ rest) = later at hdout
    have hmore := (hown (s.afterFrame b f.2 later) (b.afterFrame f.2) hseg).trans
      (congrArg _ (collectSample_more (b := b.afterFrame f.2) (show b.samples.length + 1 < n by omega)))
    have hrun := h.frame_then hpos hgain hdout hmore rfl
    have hnext := h.goto (t := s.afterFrame b f.2 later)
      (b' := { b.afterFrame f.2 with samples := b.samples ++ [x s.offset f.2] }) .wait rfl rfl rfl
    obtain ⟨y, c, hread, hport, hleft⟩ := ih (f := f') hnext rfl hseg rfl hgain (by simp; omega) hlater.symm
    rw [hsck] at hrun
    refine ⟨y, c, (readFrom_afterFrame hsck b f.2 later).trans
      ⟨hread.registers, hread.ports, hread.params, hread.inputs, hread.dout⟩, hport, ?_⟩
    have hedges : (frames.length + 1 + 1) * (24 + pulses s.gain) = 24 + pulses s.gain + (frames.length + 1) * (24 + pulses s.gain) := by
      ring
    rw [hedges, List.map_cons, ← List.singleton_append, ← List.append_assoc]
    exact hrun.trans hleft

end

end Sys2Proof.Machine
end

section
/-! The commands from acceptance to response: each is its segments, one after another (`RunsTo.andThen`). -/

namespace Sys2Proof.Machine

variable {s t y : State} {b c : Busy} {i : Instr} {p k g : Nat} {cmd : CmdWord} {arg : ArgWord} {rest : List Level} {r r' : Registers}

theorem registers_eq (h : t.registers = r) : t.initd = r.initd ∧ t.gain = r.gain ∧ t.pd = r.pd ∧
    t.offset = r.offset ∧ t.scale = r.scale ∧ t.sck = r.sck := by
  subst h
  exact ⟨rfl, rfl, rfl, rfl, rfl, rfl⟩

theorem State.sckWrite_of_low (h : s.sck = false) : s.sckWrite false = s := by
  rw [State.sckWrite, ← h]

/-! ## Segments of one kind -/

/-- A first micro-step that ends the segment. -/
theorem Ready.ends_at_once (h : Ready s p cmd arg i k) {port : Port}
    (hown : ∀ grants draws, (ownSteps (s.begun p k grants draws) (firstOf p k) i).start =
      .next ((s.begun p k grants draws).release p port)) :
    RunsTo s p s.registers s.dout 0 port := by
  obtain ⟨grants, draws, hrun⟩ := h.begins hown fun _ _ => .inr rfl
  exact ⟨_, hrun, rfl, rfl, rfl, rfl, rfl, h.quiet⟩

/-- A first micro-step that begins a frame with the line low, and a micro-step after the frame that ends the segment. -/
theorem Ready.reads_then (h : Ready s p cmd arg i k) {port : Port}
    (hstart : ∀ grants draws, (ownSteps (s.begun p k grants draws) (firstOf p k) i).start =
      .next (((s.begun p k grants draws).sckWrite false).goto (firstOf p k) .wait))
    (hgain : s.gain = 128 ∨ s.gain = 64 ∨ s.gain = 32) {polls : Nat} {f : FramePattern}
    (hdout : s.dout = frameSamples polls f ++ rest) (hlow : r.sck = false)
    (hend : ∀ y c, ReadFrom (s.sckWrite false) y rest → c.port = p → c.seg = k → c.acc = f →
      ∃ t, (ownSteps y c i).frameEnd = .next t ∧ Leaves y t p r rest port) :
    RunsTo s p r rest (24 + pulses s.gain) port := by
  obtain ⟨grants, draws, hbegin⟩ := h.begins hstart fun _ _ => .inl rfl
  have hwait := (h.working grants draws).goto (t := (s.begun p k grants draws).sckWrite false) (b' := firstOf p k) .wait rfl rfl rfl
  obtain ⟨t, hlast, hleaves⟩ := hend (((((s.begun p k grants draws).sckWrite false).goto (firstOf p k) .wait)).afterFrame
    (firstOf p k) f rest) ((firstOf p k).afterFrame f) ⟨rfl, rfl, rfl, rfl, rfl⟩ rfl rfl rfl
  obtain ⟨-, -, -, -, -, hsck⟩ := registers_eq hleaves.registers
  have hframe := hwait.frame_then rfl hgain hdout hlast (hsck.trans hlow)
  have hedges : 24 + pulses s.gain = 0 + (24 + pulses s.gain) := (Nat.zero_add _).symm
  rw [hedges]
  exact ⟨t, hbegin.trans hframe, hleaves.registers, hleaves.dout, hleaves.ports, hleaves.idle, hleaves.params, hleaves.quiet⟩

section
variable (h : Ready s p cmd arg i k) (hown : ∀ y c, c.seg = k → ownSteps y c i = wakeSteps y c none) (hinitd : s.initd = true)
include h hown hinitd

/-- On an awake chip the auto-wake segment does nothing. -/
theorem Ready.wake_of_awake (hpd : s.pd = false) : RunsTo s p s.registers s.dout 0 (.pending cmd arg (k + 1)) :=
  h.ends_at_once fun grants draws => by
    rw [hown _ _ rfl, wakeSteps_start_awake (s := s.begun p k grants draws) hinitd hpd, State.endSegment_eq _ _ cmd arg k h.port]
    rfl

/-- A powered-down chip is woken with one frame. -/
theorem Ready.wake_of_powered_down (hpd : s.pd = true) (hgain : s.gain = 128 ∨ s.gain = 64 ∨ s.gain = 32) {polls : Nat}
    {f : FramePattern} (hdout : s.dout = frameSamples polls f ++ rest) :
    RunsTo s p { s.registers with pd := false, sck := false } rest (24 + pulses s.gain) (.pending cmd arg (k + 1)) := by
  refine h.reads_then (fun grants draws => ?_) hgain hdout rfl fun y c hread hport hseg _ =>
    ⟨{ y with pd := false }.release p (.pending cmd arg (k + 1)), ?_, ?_⟩
  · rw [hown _ _ rfl, wakeSteps_start_poweredDown (s := s.begun p k grants draws) hinitd hpd]
  · have hpending : y.ports[c.port]? = some (.pending cmd arg k) := by
      rw [hread.ports, hport]
      exact h.port
    rw [hown _ _ hseg, ← hport, ← hseg]
    exact congrArg Host.Outcome.next (State.endSegment_eq { y with pd := false } c cmd arg k hpending)
  · exact ⟨congrArg (fun r : Registers => { r with pd := false }) hread.registers, hread.dout, rfl, rfl, rfl,
      hread.inputs.trans h.quiet⟩

/-- Awake or powered down before it, the chip is awake and the line low after it. -/
theorem Ready.wakes (hline : s.pd = false → s.sck = false) (hgain : s.gain = 128 ∨ s.gain = 64 ∨ s.gain = 32) {polls : Nat}
    {f : FramePattern} (hdout : s.dout = (if s.pd then frameSamples polls f else []) ++ rest) :
    RunsTo s p { s.registers with pd := false, sck := false } rest ((if s.pd then 1 else 0) * (24 + pulses s.gain))
      (.pending cmd arg (k + 1)) := by
  cases hpd : s.pd with
  | true =>
    rw [hpd, if_pos rfl] at hdout
    rw [if_pos rfl, Nat.one_mul]
    exact h.wake_of_powered_down hown hinitd hpd hgain hdout
  | false =>
    rw [hpd, if_neg Bool.false_ne_true, List.nil_append] at hdout
    have hregisters : { s.registers with pd := false, sck := false } = s.registers := by
      simp only [State.registers, hpd, hline hpd]
    rw [if_neg Bool.false_ne_true, Nat.zero_mul, hregisters, ← hdout]
    exact h.wake_of_awake hown hinitd hpd

end

/-! ## INIT -/

/-- Settles O50: after the check the line is driven and the registers written, and one frame is read with the new gain. -/
theorem initRunsToItsResponse : Obligations.InitRunsToItsResponse := by
  intro s p g polls f rest halone _
  obtain ⟨cmd, arg, h⟩ := halone.ready
  refine ⟨fun hg hdout => RunsTo.completes ?_, fun h0 h128 h64 h32 => RunsTo.completes ?_⟩
  · have haccepted : gainAccepted (initGain g) = true := (gainAccepted_initGain_iff g).mpr hg
    obtain ⟨grants, draws, hbegin⟩ := h.begins
      (t := fun grants draws => ((s.begun p 0 grants draws).sckWrite false).goto (firstOf p 0) .initDrive)
      (fun _ _ => congrArg _ (beginInit_accepted haccepted)) fun _ _ => .inl rfl
    have hdrive := (h.working grants draws).goto (t := (s.begun p 0 grants draws).sckWrite false) (b' := firstOf p 0) .initDrive
      rfl rfl rfl
    have hwrite := hdrive.runs (exec_initDrive rfl rfl _) (.inr rfl)
    have hwait := hdrive.goto (t := initRegisters (initGain g) ((s.begun p 0 grants draws).sckWrite false)) (b' := firstOf p 0) .wait
      rfl rfl rfl
    have hframe := hwait.frame_then rfl (gainPattern_valid haccepted) hdout
      (t := ((initRegisters (initGain g) ((s.begun p 0 grants draws).sckWrite false)).lineAt false 0 rest).release p (.done .ok 0)) rfl rfl
    have hrun := (hbegin.trans hwrite).trans hframe
    rw [Nat.zero_add] at hrun
    exact ⟨_, hrun, rfl, rfl, rfl, rfl, rfl, h.quiet⟩
  · have hrefused : ¬ gainAccepted (initGain g) = true := by
      rw [gainAccepted_initGain_iff]
      omega
    exact h.ends_at_once fun _ _ => congrArg _ (beginInit_refused hrefused)

/-! ## SET_PD -/

theorem ownSteps_setPd_start (hinitd : s.initd = true) (v : Nat) :
    (ownSteps s b (.setPd v)).start = .next (beginPowerTransition (powerDownAsked v) s b) :=
  requireInitd_of_initd _ hinitd

/-- Settles O57: a low phase, the rising edge, and the hold. -/
theorem powerDownRunsToItsResponse : Obligations.PowerDownRunsToItsResponse := by
  intro s p halone hinitd hpd hsck
  obtain ⟨cmd, arg, h⟩ := halone.ready
  obtain ⟨grants, draws, hbegin⟩ := h.begins
    (t := fun grants draws => ((s.begun p 0 grants draws).sckWrite false).delayThen (firstOf p 0) s.params.tSckLow .holdHigh)
    (fun grants draws => (ownSteps_setPd_start (s := s.begun p 0 grants draws) hinitd 1).trans
      (congrArg _ (beginPowerTransition_down (s := s.begun p 0 grants draws) hpd))) fun _ _ => .inl rfl
  have hlow := runs_delay (s := ((s.begun p 0 grants draws).sckWrite false).delayThen (firstOf p 0) s.params.tSckLow .holdHigh)
    rfl rfl h.quiet
  have hhold := (h.working grants draws).goto (t := (s.begun p 0 grants draws).lineAt false 0 s.dout) (b' := firstOf p 0) .holdHigh
    rfl rfl rfl
  have hhigh := hhold.writes_high (lineStep_holdHigh rfl)
  have hheld := (h.working grants draws).goto (t := (s.begun p 0 grants draws).lineAt true 0 s.dout) (b' := firstOf p 0) .holdEnd
    rfl rfl rfl
  have hend := hheld.runs (exec_holdEnd rfl rfl _) (.inr rfl)
  exact RunsTo.completes ⟨_, ((hbegin.trans hlow).trans hhigh).trans hend, rfl, rfl, rfl, rfl, rfl, h.quiet⟩

/-- Settles O58: SET_PD's wake is the auto-wake segment's frame. -/
theorem wakeRunsToItsResponse : Obligations.WakeRunsToItsResponse := by
  intro s p polls f rest halone hinitd hpd hgain hdout
  obtain ⟨cmd, arg, h⟩ := halone.ready
  refine RunsTo.completes (h.reads_then (fun grants draws => ?_) hgain hdout rfl fun y c hread hport _ _ =>
    ⟨{ y with pd := false }.release p (.done .ok 0), ?_, ?_⟩)
  · exact (ownSteps_setPd_start (s := s.begun p 0 grants draws) hinitd 0).trans
      (congrArg _ (beginPowerTransition_wake (s := s.begun p 0 grants draws) hpd))
  · rw [← hport]
    rfl
  · exact ⟨congrArg (fun r : Registers => { r with pd := false }) hread.registers, hread.dout, rfl, rfl, rfl,
      hread.inputs.trans h.quiet⟩

/-! ## GET_GAIN and SET_GAIN -/

theorem Ready.answers_gain (h : Ready s p cmd arg .getGain 1) (hinitd : s.initd = true) :
    RunsTo s p s.registers s.dout 0 (.done .ok (BitVec.ofNat 64 s.gain.toNat)) := by
  refine h.ends_at_once fun grants draws => ?_
  rw [ownSteps_getGain_answer rfl, answerSteps_start (s := s.begun p 1 grants draws) hinitd, zext64OfGain_eq]
  rfl

/-- Settles O54: the auto-wake segment, and the answer with the gain it left. -/
theorem getGainRunsToItsResponse : Obligations.GetGainRunsToItsResponse := by
  intro s p polls f rest halone hinitd hgain
  obtain ⟨cmd, arg, h⟩ := halone.ready
  have hanswer {r : Registers} {t : State} (ht : Ready t p cmd arg .getGain 1) (hregisters : t.registers = r) (hi : r.initd = true) :
      RunsTo t p r t.dout 0 (.done .ok (BitVec.ofNat 64 r.gain.toNat)) := by
    subst hregisters
    exact ht.answers_gain hi
  refine ⟨fun hpd => RunsTo.completes ?_, fun hpd hdout => RunsTo.completes ?_⟩
  · exact (h.wake_of_awake (fun _ _ hseg => ownSteps_getGain_wake hseg) hinitd hpd).andThen h fun t ht hregisters hrest =>
      hrest ▸ hanswer ht hregisters hinitd
  · exact (h.wake_of_powered_down (fun _ _ hseg => ownSteps_getGain_wake hseg) hinitd hpd hgain hdout).andThen h
      (n := 0) fun t ht hregisters hrest => hrest ▸ hanswer ht hregisters hinitd

/-- SET_GAIN's first segment, with a new gain. -/
theorem Ready.stores_gain (h : Ready s p cmd arg (.setGain g) 0) (hg : gainAccepted g = true) (hnew : s.gain ≠ BitVec.ofNat 8 g)
    (hinitd : s.initd = true) (hsck : s.sck = false) :
    RunsTo s p { s.registers with gain := BitVec.ofNat 8 g } s.dout 0 (.pending cmd arg 1) := by
  obtain ⟨grants, draws, hrun⟩ := h.begins
    (t := fun grants draws => ({ s.begun p 0 grants draws with gain := BitVec.ofNat 8 g }).release p (.pending cmd arg 1))
    (fun grants draws => by
      rw [ownSteps_setGain_store rfl]
      refine (requireInitd_of_initd (s := s.begun p 0 grants draws) _ hinitd).trans ?_
      rw [storeGain_new (s := s.begun p 0 grants draws) hg (Ne.symm hnew)]
      exact congrArg Host.Outcome.next
        (State.endSegment_eq { s.begun p 0 grants draws with gain := BitVec.ofNat 8 g } (firstOf p 0) cmd arg 0 h.port))
    fun _ _ => .inl hsck
  exact ⟨_, hrun, rfl, rfl, rfl, rfl, rfl, h.quiet⟩

/-- SET_GAIN's last segment. -/
theorem Ready.discards (h : Ready s p cmd arg (.setGain g) 2) (hinitd : s.initd = true) (hsck : s.sck = false)
    (hgain : s.gain = 128 ∨ s.gain = 64 ∨ s.gain = 32) {polls : Nat} {f : FramePattern}
    (hdout : s.dout = frameSamples polls f ++ rest) : RunsTo s p s.registers rest (24 + pulses s.gain) (.done .ok 0) := by
  refine h.reads_then (fun grants draws => ?_) hgain hdout hsck fun y c hread hport hseg _ => ⟨y.release p (.done .ok 0), ?_, ?_⟩
  · rw [ownSteps_setGain_discard rfl, readSteps_start (s := s.begun p 2 grants draws) hinitd,
      State.sckWrite_of_low (s := s.begun p 2 grants draws) hsck]
  · rw [ownSteps_setGain_discard hseg, ← hport]
    rfl
  · rw [State.sckWrite_of_low hsck] at hread
    exact ⟨hread.registers, hread.dout, rfl, rfl, rfl,
      hread.inputs.trans h.quiet⟩

/-- Settles O56: the store, the auto-wake segment of an awake chip, and a frame with the new gain. -/
theorem setGainLatchesTheNewGain : Obligations.SetGainLatchesTheNewGain := by
  intro s p g polls f rest halone hg hnew hinitd hpd hsck hdout
  obtain ⟨cmd, arg, h⟩ := halone.ready
  have haccepted : gainAccepted g = true := (gainAccepted_iff g).mpr hg
  have hedges : 24 + pulses (BitVec.ofNat 8 g) = 0 + (0 + (24 + pulses (BitVec.ofNat 8 g))) := by omega
  rw [hedges]
  refine RunsTo.completes ((h.stores_gain haccepted hnew hinitd hsck).andThen h fun t ht hregisters hrest => ?_)
  obtain ⟨hi, -, hp, -, -, hs⟩ := registers_eq hregisters
  refine ((ht.wake_of_awake (fun _ _ hseg => ownSteps_setGain_wake hseg g) (hi.trans hinitd) (hp.trans hpd)).andThen ht
    fun u hu huregisters hurest => ?_)
  rw [hregisters] at huregisters
  obtain ⟨hi, hg, -, -, -, hs⟩ := registers_eq huregisters
  rw [← huregisters, show BitVec.ofNat 8 g = u.gain from hg.symm]
  exact hu.discards (hi.trans hinitd) (hs.trans hsck) (hg ▸ gainPattern_valid haccepted) (hurest.trans (hrest.trans hdout))

/-! ## GET_WEIGHT -/

/-- The port's state after GET_WEIGHT with the quotient `wt` (42_calibration.md R174). -/
def weightAnswer (wt : F64) : Port := if isFinite wt then .done .ok wt else .done .overflow 0

theorem weightAnswer_finite {wt : F64} (h : isFinite wt = true) : weightAnswer wt = .done .ok wt := if_pos h

theorem weightAnswer_overflow {wt : F64} (h : isFinite wt = false) : weightAnswer wt = .done .overflow 0 := by
  rw [weightAnswer, h, if_neg Bool.false_ne_true]

theorem weightAnswer_done (wt : F64) : ∃ status result, weightAnswer wt = .done status result := by
  unfold weightAnswer
  split
  · exact ⟨_, _, rfl⟩
  · exact ⟨_, _, rfl⟩

theorem finishWeight_eq (raw : Int) :
    finishWeight raw s b = s.release b.port (weightAnswer (fdiv (f64OfInt (raw - s.offset.toInt)) s.scale)) := by
  cases h : isFinite (fdiv (f64OfInt (raw - s.offset.toInt)) s.scale) with
  | true => rw [finishWeight_finite h, weightAnswer_finite h, State.respond]
  | false => rw [finishWeight_overflow h, weightAnswer_overflow h, State.raise]

section
variable (h : Ready s p cmd arg .getWeight 1) (hregisters : s.registers = r) (hinitd : r.initd = true)
include h hregisters hinitd

/-- GET_WEIGHT's sampling segment, with a zero scale. -/
theorem Ready.refuses_zero_scale (hscale : isZero r.scale = true) : RunsTo s p r s.dout 0 (.done .divisionByZero 0) := by
  subst hregisters
  refine h.ends_at_once fun grants draws => ?_
  rw [ownSteps_getWeight_sample rfl]
  exact (requireInitd_of_initd (s := s.begun p 1 grants draws) _ hinitd).trans (congrArg _ (if_pos hscale))

/-- GET_WEIGHT's sampling segment, with another scale. -/
theorem Ready.weighs (hscale : isZero r.scale = false) (hsck : r.sck = false) (hgain : r.gain = 128 ∨ r.gain = 64 ∨ r.gain = 32)
    {polls : Nat} {f : FramePattern} (hdout : s.dout = frameSamples polls f ++ rest) :
    RunsTo s p r rest (24 + pulses r.gain) (weightAnswer (fdiv (f64OfInt (s24 f - r.offset.toInt)) r.scale)) := by
  subst hregisters
  refine h.reads_then (fun grants draws => ?_) hgain hdout hsck fun y c hread hport hseg hacc =>
    ⟨y.release p (weightAnswer (fdiv (f64OfInt (s24 f - s.offset.toInt)) s.scale)), ?_, ?_⟩
  · rw [ownSteps_getWeight_sample rfl, State.sckWrite_of_low (s := s.begun p 1 grants draws) hsck]
    exact (requireInitd_of_initd (s := s.begun p 1 grants draws) _ hinitd).trans
      (congrArg _ (if_neg (ne_true_of_eq_false hscale)))
  · obtain ⟨-, -, -, hoffset, hsc, -⟩ := registers_eq hread.registers
    rw [ownSteps_getWeight_sample hseg, finishWeight_eq, hport, hacc, hoffset, hsc]
    rfl
  · rw [State.sckWrite_of_low hsck] at hread
    exact ⟨hread.registers, hread.dout, rfl, rfl, rfl,
      hread.inputs.trans h.quiet⟩

end

/-- Settles O53: the auto-wake segment of an awake chip, and the sampling segment. -/
theorem getWeightRunsToItsResponse : Obligations.GetWeightRunsToItsResponse := by
  intro s p polls f rest wt halone hinitd hpd hsck hgain hdout hwt
  obtain ⟨cmd, arg, h⟩ := halone.ready
  have hwake := h.wake_of_awake (fun _ _ hseg => ownSteps_getWeight_wake hseg) hinitd hpd
  have hweigh (hscale : isZero s.scale = false) : RunsTo s p s.registers rest (24 + pulses s.gain) (weightAnswer wt) := by
    have hedges : 24 + pulses s.gain = 0 + (24 + pulses s.gain) := (Nat.zero_add _).symm
    rw [hwt, hedges]
    exact hwake.andThen h fun t ht hregisters hrest => ht.weighs hregisters hinitd hscale hsck hgain (hrest.trans hdout)
  refine ⟨fun hscale => RunsTo.completes ?_, fun hscale hfinite => RunsTo.completes ?_, fun hscale hinfinite => RunsTo.completes ?_⟩
  · exact hwake.andThen h (n := 0) fun t ht hregisters hrest => hrest ▸ ht.refuses_zero_scale hregisters hinitd hscale
  · exact weightAnswer_finite hfinite ▸ hweigh hscale
  · exact weightAnswer_overflow hinfinite ▸ hweigh hscale

/-- Settles O55: the auto-wake segment reads and drops a frame, and the sampling segment finds the line low. -/
theorem getWeightAfterPowerDownDiscardsOneFrame : Obligations.GetWeightAfterPowerDownDiscardsOneFrame := by
  intro s p polls polls' dropped f rest wt halone hinitd hpd hgain hdout hwt
  obtain ⟨cmd, arg, h⟩ := halone.ready
  have hwake := h.wake_of_powered_down (fun _ _ hseg => ownSteps_getWeight_wake hseg) hinitd hpd hgain hdout
  have hweigh (hscale : isZero s.scale = false) : RunsTo s p { s.registers with pd := false, sck := false } rest
      (2 * (24 + pulses s.gain)) (weightAnswer wt) := by
    rw [hwt, Nat.two_mul]
    exact hwake.andThen h fun t ht hregisters hrest => ht.weighs hregisters hinitd hscale rfl hgain hrest
  refine ⟨fun hscale hfinite => RunsTo.completes ?_, fun hscale hinfinite => RunsTo.completes ?_, fun hscale => RunsTo.completes ?_⟩
  · exact weightAnswer_finite hfinite ▸ hweigh hscale
  · exact weightAnswer_overflow hinfinite ▸ hweigh hscale
  · exact hwake.andThen h (n := 0) fun t ht hregisters hrest => hrest ▸ ht.refuses_zero_scale hregisters hinitd hscale

/-- Settles O59: the frame ends with the line low, and only a wake writes `PD`. -/
theorem powerDownHazardLeavesPdStale : Obligations.PowerDownHazardLeavesPdStale := by
  intro s b cmd arg polls f rest hb hseg hpos hdelay hport hdec hin hinitd hpd hsck hscale hgain hdout
  have hstart : Working s b .getWeight := ⟨hb, hdelay, hin, cmd, arg, 1, hport, hdec⟩
  have hexec := exec_getWeight_sample hb hinitd hseg hpos
  rw [hscale, if_neg Bool.false_ne_true] at hexec
  have hwait := hstart.goto (t := s) (b' := b) .wait rfl rfl rfl
  have hlast := congrArg SegmentSteps.frameEnd (ownSteps_getWeight_sample (s := (s.goto b .wait).afterFrame
    { b with pos := .wait, delaying := false } f rest) (b := Busy.afterFrame { b with pos := .wait, delaying := false } f) hseg)
  have hframe := hwait.frame_then rfl hgain hdout (hlast.trans (congrArg _ (finishWeight_eq _))) rfl
  rw [State.goto_sck, hsck, if_pos rfl] at hframe
  obtain ⟨k, hsteps, hedges⟩ := (hstart.runs hexec (.inr rfl)).trans hframe
  obtain ⟨status, result, hdone⟩ := weightAnswer_done (fdiv (f64OfInt (s24 f - s.offset.toInt)) s.scale)
  refine ⟨k, _, hsteps, rfl, hpd, rfl, rfl, hedges.trans (Nat.zero_add _), status, result, ?_⟩
  exact (getElem?_set_same hport).trans (congrArg some hdone)

/-! ## TARE and CALIBRATE -/

/-- A segment that samples frames, and ends with what the command makes of them all. -/
theorem Ready.collects (h : Ready s p cmd arg i 1) {n : Nat} {x : BitVec 24 → FramePattern → Int}
    {finish : State → Busy → List Int → State}
    (hown : ∀ y c, c.seg = 1 → ownSteps y c i = readSteps y c (collectSample n (x y.offset c.acc) y c (finish y c)))
    (hfinish : ∀ y c l, (finish y c l).sck = y.sck) {frames : List (Nat × FramePattern)} (hlen : frames.length = n) (hn : 0 < n)
    (hregisters : s.registers = r') (hinitd : r'.initd = true) (hsck : r'.sck = false)
    (hgain : r'.gain = 128 ∨ r'.gain = 64 ∨ r'.gain = 32) (hdout : s.dout = framesSamples frames ++ rest) {port : Port}
    (hend : ∀ y c, ReadFrom s y rest → c.port = p →
      Leaves y (finish y c (frames.map fun g => x r'.offset g.2)) p r rest port) :
    RunsTo s p r rest (frames.length * (24 + pulses r'.gain)) port := by
  subst hregisters
  obtain ⟨f, frames, rfl⟩ := List.exists_cons_of_length_pos (hlen ▸ hn)
  obtain ⟨grants, draws, hbegin⟩ := h.begins (t := fun grants draws => (s.begun p 1 grants draws).goto (firstOf p 1) .wait)
    (fun grants draws => by rw [hown _ _ rfl]; exact readSteps_start (s := s.begun p 1 grants draws) hinitd _) fun _ _ => .inr rfl
  have hwait := (h.working grants draws).goto (t := s.begun p 1 grants draws) (b' := firstOf p 1) .wait rfl rfl rfl
  rw [framesSamples_cons, List.append_assoc] at hdout
  obtain ⟨y, c, hread, hport, hframes⟩ := hwait.collects (fun y c hseg => by rw [hown y c hseg]; rfl) hfinish frames rest rfl rfl hsck
    hgain (by rw [← hlen, List.length_cons]; exact Nat.zero_add _) hdout
  have hleaves := hend y c ⟨hread.registers, hread.ports, hread.params, hread.inputs, hread.dout⟩ hport
  have hrun := hbegin.trans hframes
  rw [Nat.zero_add] at hrun
  exact ⟨_, hrun, hleaves.registers, hleaves.dout, hleaves.ports.trans (by rw [hread.ports]; rfl), hleaves.idle,
    hleaves.params.trans hread.params, hleaves.quiet⟩

/-- Settles O51: the auto-wake segment, and the frames of the sampling segment. -/
theorem tareRunsToItsResponse : Obligations.TareRunsToItsResponse := by
  intro s p n polls dropped frames rest halone _ hinitd hline hgain hlen hdout
  obtain ⟨cmd, arg, h⟩ := halone.ready
  rw [Nat.add_mul]
  refine RunsTo.completes ((h.wakes (fun _ _ hseg => ownSteps_tare_wake hseg n) hinitd hline hgain hdout).andThen h
    fun t ht hregisters hrest => ht.collects (x := fun _ f => s24 f) (finish := finishTare) (n := sampleCount n)
      (fun y c hseg => ownSteps_tare_sample hseg n) (fun _ _ _ => rfl) hlen (sampleCount_pos n) hregisters hinitd rfl hgain hrest
      fun y c hread hport => ⟨?_, hread.dout, ?_, rfl, rfl, hread.inputs.trans ht.quiet⟩)
  · have hy := hread.registers.trans hregisters
    exact congrArg (fun r : Registers =>
      { r with offset := BitVec.ofInt 24 (median (frames.map fun f : Nat × FramePattern => s24 f.2)) }) hy
  · rw [← hport]
    rfl

theorem finishCalibrate_sck (w : F64) (s : State) (b : Busy) (l : List Int) : (finishCalibrate w s b l).sck = s.sck := by
  cases h : isFinite (fdiv (f64OfInt (median l)) w) with
  | true => rw [finishCalibrate_finite h, State.respond_sck]
  | false => rw [finishCalibrate_overflow h, State.raise_sck]

/-- Settles O52: as TARE, with the weight checked before the auto-wake segment. -/
theorem calibrateRunsToItsResponse : Obligations.CalibrateRunsToItsResponse := by
  intro s p n polls w sc dropped frames rest halone _ hfinite hzero hinitd hline hgain hlen hdout hsc
  obtain ⟨cmd, arg, h⟩ := halone.ready
  have hwake := h.wakes (fun _ _ hseg => by rw [ownSteps_calibrate_wake hseg, weightCheck_of_valid hfinite hzero])
    hinitd hline hgain hdout
  rw [Nat.add_mul]
  have hsample {r : Registers} {port : Port}
      (hend : ∀ y c, y.registers = { s.registers with pd := false, sck := false } → y.dout = rest → y.inputs = [] → c.port = p →
        Leaves y (finishCalibrate w y c (frames.map fun f => s24 f.2 - s.offset.toInt)) p r rest port) :
      RunsTo s p r rest ((if s.pd then 1 else 0) * (24 + pulses s.gain) + frames.length * (24 + pulses s.gain)) port :=
    hwake.andThen h fun t ht hregisters hrest => ht.collects (x := fun o f => s24 f - o.toInt) (finish := finishCalibrate w)
      (fun y c hseg => ownSteps_calibrate_sample hseg n w) (finishCalibrate_sck w) hlen (sampleCount_pos n) hregisters hinitd rfl
      hgain hrest fun y c hread hport => hend y c (hread.registers.trans hregisters) hread.dout (hread.inputs.trans ht.quiet) hport
  subst hsc
  refine ⟨fun hquotient => RunsTo.completes (hsample fun y c hregisters hrest hquiet hport => ?_),
    fun hquotient => RunsTo.completes (hsample fun y c hregisters hrest hquiet hport => ?_)⟩
  · rw [finishCalibrate_finite hquotient]
    refine ⟨?_, hrest, by rw [← hport]; rfl, rfl, rfl, hquiet⟩
    exact congrArg (fun r : Registers =>
      { r with scale := fdiv (f64OfInt (median (frames.map fun f : Nat × FramePattern => s24 f.2 - s.offset.toInt))) w }) hregisters
  · rw [finishCalibrate_overflow hquotient]
    exact ⟨hregisters, hrest, by rw [← hport]; rfl, rfl, rfl, hquiet⟩

end Sys2Proof.Machine
end

section
/-! Binary64 (00_scope.md R10, 42_calibration.md R177). A rounded pattern counts its last place and its significand up together, so it
stands for the nearest multiple of its last place; a number with a smaller last place is below every significand of 53 bits. -/

namespace Sys2Proof.Machine

/-! ## The fields of a pattern -/

section
variable {M e m : Nat} (sg : Bool)

theorem f64Sign_withSign (h : M < 2 ^ 63) : f64Sign (f64WithSign sg M) = sg := by
  rw [f64Sign, f64WithSign, BitVec.getLsbD_ofNat]
  cases sg with
  | true => rw [if_pos rfl, Nat.testBit_two_pow_add_eq, Nat.testBit_lt_two_pow h]; rfl
  | false => simp [Nat.testBit_lt_two_pow h]

theorem f64Exponent_withSign (h : M < 2 ^ 63) : f64Exponent (f64WithSign sg M) = M / 2 ^ 52 := by
  rw [f64Exponent, f64WithSign, BitVec.extractLsb'_toNat, BitVec.toNat_ofNat, Nat.shiftRight_eq_div_pow]
  cases sg with
  | true => rw [if_pos rfl]; omega
  | false => rw [if_neg Bool.false_ne_true]; omega

theorem f64Fraction_withSign : f64Fraction (f64WithSign sg M) = M % 2 ^ 52 := by
  rw [f64Fraction, f64WithSign, BitVec.extractLsb'_toNat, BitVec.toNat_ofNat, Nat.shiftRight_zero]
  cases sg with
  | true => rw [if_pos rfl]; omega
  | false => rw [if_neg Bool.false_ne_true]; omega

/-- A pattern put together from a last place and a significand: a carry out of the fraction is the next exponent. -/
theorem f64Units_withSign (hM : e * 2 ^ 52 + m < 2 ^ 63) (hm : m ≤ 2 ^ 53) (he : e = 0 ∨ 2 ^ 52 ≤ m) :
    f64Units (f64WithSign sg (e * 2 ^ 52 + m)) = m * 2 ^ e := by
  rw [f64Units, f64Significand, f64Shift, f64Exponent_withSign sg hM, f64Fraction_withSign sg]
  rcases Nat.lt_or_ge m (2 ^ 52) with hsub | hnormal
  · obtain rfl : e = 0 := he.resolve_right (by omega)
    rw [if_pos (by omega), show (0 * 2 ^ 52 + m) / 2 ^ 52 - 1 = 0 by omega, show (0 * 2 ^ 52 + m) % 2 ^ 52 = m by omega]
  · rw [if_neg (by omega)]
    rcases Nat.lt_or_eq_of_le hm with hlt | rfl
    · rw [show (e * 2 ^ 52 + m) / 2 ^ 52 - 1 = e by omega, show 2 ^ 52 + (e * 2 ^ 52 + m) % 2 ^ 52 = m by omega]
    · rw [show (e * 2 ^ 52 + 2 ^ 53) / 2 ^ 52 - 1 = e + 1 by omega, show 2 ^ 52 + (e * 2 ^ 52 + 2 ^ 53) % 2 ^ 52 = 2 ^ 52 by omega]
      ring

theorem f64Fraction_even (hm : m % 2 = 0) :
    f64Fraction (f64WithSign sg (e * 2 ^ 52 + m)) % 2 = 0 := by
  rw [f64Fraction_withSign sg]
  omega

end

/-! ## Rounding to an integer -/

/-- The rounded quotient is the quotient or one more, whichever is nearer, and of two that are equally near the even one. -/
theorem roundQuotient_spec (num : Nat) {den : Nat} (hden : 0 < den) :
    2 * (roundQuotient num den * den) ≤ 2 * num + den ∧ 2 * num ≤ 2 * (roundQuotient num den * den) + den ∧
      (2 * (roundQuotient num den * den) = 2 * num + den ∨ 2 * num = 2 * (roundQuotient num den * den) + den →
        roundQuotient num den % 2 = 0) := by
  have hnum := Nat.div_add_mod' num den
  have hrem := Nat.mod_lt num hden
  have hnext : (num / den + 1) * den = num / den * den + den := Nat.succ_mul _ _
  rcases Nat.lt_trichotomy (2 * (num % den)) den with hlt | heq | hgt
  · rw [show roundQuotient num den = num / den from if_pos hlt]
    omega
  · have hround : roundQuotient num den = num / den + num / den % 2 := by simp [roundQuotient, heq]
    rcases Nat.mod_two_eq_zero_or_one (num / den) with hparity | hparity
    · rw [hround, hparity, Nat.add_zero]
      omega
    · rw [hround, hparity]
      omega
  · rw [show roundQuotient num den = num / den + 1 by simp [roundQuotient, hgt, hgt.not_gt]]
    omega

theorem roundQuotient_mem (num den : Nat) : roundQuotient num den = num / den ∨ roundQuotient num den = num / den + 1 := by
  unfold roundQuotient
  simp only
  split_ifs <;> omega

/-- To nearest, and a tie to even. -/
theorem roundQuotient_half (num : Nat) {den : Nat} (hden : 0 < den) : |(roundQuotient num den : ℚ) - num / den| ≤ 1 / 2 ∧
    (|(roundQuotient num den : ℚ) - num / den| = 1 / 2 → roundQuotient num den % 2 = 0) := by
  obtain ⟨hle, hge, htie⟩ := roundQuotient_spec num hden
  generalize roundQuotient num den = m at hle hge htie
  have hd : (0 : ℚ) < den := Nat.cast_pos.mpr hden
  have hdiff : (m : ℚ) - num / den = (m * den - num) / den := by
    rw [sub_div, mul_div_cancel_right₀ _ hd.ne']
  have hle' : 2 * ((m : ℚ) * den) ≤ 2 * num + den := mod_cast hle
  have hge' : 2 * (num : ℚ) ≤ 2 * (m * den) + den := mod_cast hge
  rw [hdiff, abs_div, abs_of_pos hd, div_le_iff₀ hd, div_eq_iff hd.ne', abs_le]
  refine ⟨⟨by linarith, by linarith⟩, fun heq => htie ?_⟩
  rcases abs_eq (by positivity) |>.mp heq with h | h
  · exact .inl (by exact_mod_cast (by linarith : 2 * ((m : ℚ) * den) = 2 * num + den))
  · exact .inr (by exact_mod_cast (by linarith : 2 * (num : ℚ) = 2 * (m * den) + den))

/-- No integer is nearer than a number within one half, and one that is as near is at one half as well. -/
theorem abs_sub_le_of_half {m k : Int} {q : ℚ} (h : |(m : ℚ) - q| ≤ 1 / 2) (hne : m ≠ k) :
    1 / 2 ≤ |(k : ℚ) - q| := by
  have hone : (1 : ℚ) ≤ |(m : ℚ) - k| := by exact_mod_cast Int.one_le_abs (sub_ne_zero.mpr hne)
  have htriangle := abs_sub_le (m : ℚ) q k
  rw [abs_sub_comm q] at htriangle
  linarith

/-! ## The last place -/

/-- The last place leaves at most 53 bits of the quotient, and 53 bits unless it is the least. -/
theorem lastPlace_spec (num : Nat) {den : Nat} : num / (den <<< lastPlace num den) < 2 ^ 53 ∧
    (lastPlace num den = 0 ∨ 2 ^ 52 ≤ num / (den <<< lastPlace num den)) := by
  rw [Nat.shiftLeft_eq, ← Nat.div_div_eq_div_mul]
  unfold lastPlace
  generalize num / den = n
  rcases Nat.eq_zero_or_pos n with rfl | hpos
  · simp
  · have hle := Nat.log2_self_le hpos.ne'
    have hlt := Nat.lt_log2_self (n := n)
    rw [Nat.div_lt_iff_lt_mul (by positivity), Nat.le_div_iff_mul_le (by positivity), ← pow_add, ← pow_add]
    rcases Nat.le_total (Nat.log2 n) 52 with hsmall | hlarge
    · exact ⟨hlt.trans_le (Nat.pow_le_pow_right two_pos (by omega)), .inl (by omega)⟩
    · refine ⟨hlt.trans_le (Nat.pow_le_pow_right two_pos (by omega)), .inr ?_⟩
      rwa [show 52 + (Nat.log2 n - 52) = Nat.log2 n by omega]

/-! ## The rounded pattern -/

/-- The significand of the rounded quotient `num / den`, in its last place. -/
def roundedSignificand (num den : Nat) : Nat := roundQuotient num (den <<< lastPlace num den)

/-- The quotient `num / den` units of 2^−1074, rounded, with a sign. -/
def rounded (sg : Bool) (num den : Nat) : F64 := f64WithSign sg (roundMagnitude num den)

theorem roundMagnitude_eq (num den : Nat) :
    roundMagnitude num den = min (lastPlace num den * 2 ^ 52 + roundedSignificand num den) f64InfMagnitude := by
  rw [← Nat.shiftLeft_eq]
  rfl

theorem roundMagnitude_le (num den : Nat) : roundMagnitude num den ≤ 2047 * 2 ^ 52 := min_le_right _ _

theorem roundedSignificand_bounds (num den : Nat) : roundedSignificand num den ≤ 2 ^ 53 ∧
    (lastPlace num den = 0 ∨ 2 ^ 52 ≤ roundedSignificand num den) := by
  obtain ⟨hlt, hplace⟩ := lastPlace_spec num (den := den)
  unfold roundedSignificand
  rcases roundQuotient_mem num (den <<< lastPlace num den) with h | h <;> rw [h] <;> omega

theorem f64Sign_rounded (sg : Bool) (num den : Nat) : f64Sign (rounded sg num den) = sg :=
  f64Sign_withSign sg (by have := roundMagnitude_le num den; omega)

theorem isNaN_rounded (sg : Bool) (num den : Nat) : isNaN (rounded sg num den) = false := by
  have hle := roundMagnitude_le num den
  rw [isNaN, rounded, f64Exponent_withSign sg (by omega), f64Fraction_withSign]
  simp only [Bool.and_eq_false_iff, beq_eq_false_iff_ne, bne_eq_false_iff_eq]
  omega

theorem isFinite_rounded_iff (sg : Bool) (num den : Nat) : isFinite (rounded sg num den) = true ↔
    lastPlace num den * 2 ^ 52 + roundedSignificand num den < 2047 * 2 ^ 52 := by
  have hle := roundMagnitude_le num den
  rw [isFinite, rounded, f64Exponent_withSign sg (by omega), bne_iff_ne, roundMagnitude_eq, f64InfMagnitude]
  omega

section
variable {sg : Bool} {num den : Nat} (h : isFinite (rounded sg num den) = true)
include h

theorem rounded_of_finite :
    rounded sg num den = f64WithSign sg (lastPlace num den * 2 ^ 52 + roundedSignificand num den) := by
  have hlt := (isFinite_rounded_iff sg num den).mp h
  rw [rounded, roundMagnitude_eq, min_eq_left]
  exact hlt.le

theorem f64Units_rounded : f64Units (rounded sg num den) = roundedSignificand num den * 2 ^ lastPlace num den := by
  have hlt := (isFinite_rounded_iff sg num den).mp h
  obtain ⟨hm, he⟩ := roundedSignificand_bounds num den
  rw [rounded_of_finite h]
  exact f64Units_withSign sg (by omega) hm he

theorem f64Fraction_rounded (heven : roundedSignificand num den % 2 = 0) : f64Fraction (rounded sg num den) % 2 = 0 := by
  rw [rounded_of_finite h]
  exact f64Fraction_even sg heven

end

/-! ## The nearest number -/

section
variable (num : Nat) {den : Nat} (hden : 0 < den)
include hden

/-- The quotient in last places. -/
theorem quotient_eq_mul_place : (num : ℚ) / den = num / (den <<< lastPlace num den : Nat) * 2 ^ lastPlace num den := by
  have hd : (den : ℚ) ≠ 0 := Nat.cast_ne_zero.mpr hden.ne'
  have he : (2 : ℚ) ^ lastPlace num den ≠ 0 := pow_ne_zero _ two_ne_zero
  rw [Nat.shiftLeft_eq, Nat.cast_mul, Nat.cast_pow, Nat.cast_ofNat]
  field_simp

theorem place_pos : 0 < den <<< lastPlace num den := by
  rw [Nat.shiftLeft_eq]
  positivity

theorem roundedSignificand_half :
    |(roundedSignificand num den : ℚ) - num / (den <<< lastPlace num den : Nat)| ≤ 1 / 2 ∧
    (|(roundedSignificand num den : ℚ) - num / (den <<< lastPlace num den : Nat)| = 1 / 2 → roundedSignificand num den % 2 = 0) :=
  roundQuotient_half num (place_pos num hden)

/-- The quotient in last places is below 2^53, and at least 2^52 unless the place is the least. -/
theorem quotient_bounds : (num : ℚ) / (den <<< lastPlace num den : Nat) < 2 ^ 53 ∧
    (lastPlace num den = 0 ∨ 2 ^ 52 ≤ (num : ℚ) / (den <<< lastPlace num den : Nat)) := by
  have hpos := place_pos num hden
  have hpos' : (0 : ℚ) < (den <<< lastPlace num den : Nat) := Nat.cast_pos.mpr hpos
  obtain ⟨hlt, hplace⟩ := lastPlace_spec num (den := den)
  rw [div_lt_iff₀ hpos', le_div_iff₀ hpos']
  refine ⟨by exact_mod_cast (Nat.div_lt_iff_lt_mul hpos).mp hlt, hplace.imp_right fun hle => ?_⟩
  exact_mod_cast (Nat.le_div_iff_mul_le hpos).mp hle

/-- Among the multiples of the last place. -/
theorem nearest_multiple (k : Nat) :
    |(roundedSignificand num den : ℚ) * 2 ^ lastPlace num den - num / den| ≤ |(k : ℚ) * 2 ^ lastPlace num den - num / den| ∧
    (|(roundedSignificand num den : ℚ) * 2 ^ lastPlace num den - num / den| = |(k : ℚ) * 2 ^ lastPlace num den - num / den| →
      k ≠ roundedSignificand num den → roundedSignificand num den % 2 = 0) := by
  obtain ⟨hhalf, htie⟩ := roundedSignificand_half num hden
  have hplace : (0 : ℚ) < 2 ^ lastPlace num den := by positivity
  rw [quotient_eq_mul_place num hden, ← sub_mul, ← sub_mul, abs_mul, abs_mul, abs_of_pos hplace,
    mul_le_mul_iff_left₀ hplace, mul_left_inj' hplace.ne']
  generalize (num : ℚ) / (den <<< lastPlace num den : Nat) = q at hhalf htie
  generalize roundedSignificand num den = m at hhalf htie
  rcases eq_or_ne k m with rfl | hne
  · exact ⟨le_rfl, fun _ h => absurd rfl h⟩
  · have hfar : 1 / 2 ≤ |(k : ℚ) - q| := abs_sub_le_of_half (m := m) (k := k) hhalf (Nat.cast_injective.ne hne.symm)
    exact ⟨hhalf.trans hfar, fun heq _ => htie (le_antisymm hhalf (heq ▸ hfar))⟩

/-- Among all numbers with a significand of 53 bits. One with a smaller last place is below 2^52 last places, which is nearer. -/
theorem nearest {S : Nat} (hS : S < 2 ^ 53) (j : Nat) :
    |(roundedSignificand num den : ℚ) * 2 ^ lastPlace num den - num / den| ≤ |(S : ℚ) * 2 ^ j - num / den| ∧
    (|(roundedSignificand num den : ℚ) * 2 ^ lastPlace num den - num / den| = |(S : ℚ) * 2 ^ j - num / den| →
      (S : ℚ) * 2 ^ j ≠ roundedSignificand num den * 2 ^ lastPlace num den → roundedSignificand num den % 2 = 0) := by
  rcases le_or_gt (lastPlace num den) j with hle | hlt
  · have hmultiple : (S : ℚ) * 2 ^ j = (S * 2 ^ (j - lastPlace num den) : Nat) * 2 ^ lastPlace num den := by
      rw [Nat.cast_mul, Nat.cast_pow, Nat.cast_ofNat, mul_assoc, ← pow_add, Nat.sub_add_cancel hle]
    obtain ⟨hnear, htie⟩ := nearest_multiple num hden (S * 2 ^ (j - lastPlace num den))
    rw [hmultiple]
    exact ⟨hnear, fun heq hne => htie heq fun h => hne (by rw [h])⟩
  · obtain ⟨-, hplace⟩ := quotient_bounds num hden
    have hbelow : (S : ℚ) * 2 ^ j < (2 ^ 52 : Nat) * 2 ^ lastPlace num den := by
      have hnat : S * 2 ^ j < 2 ^ 52 * 2 ^ lastPlace num den := calc
        S * 2 ^ j < 2 ^ 53 * 2 ^ j := Nat.mul_lt_mul_of_pos_right hS (by positivity)
        _ = 2 ^ 52 * 2 ^ (j + 1) := by ring
        _ ≤ 2 ^ 52 * 2 ^ lastPlace num den := Nat.mul_le_mul_left _ (Nat.pow_le_pow_right two_pos hlt)
      exact_mod_cast hnat
    have habove : ((2 ^ 52 : Nat) : ℚ) * 2 ^ lastPlace num den ≤ num / den := by
      rw [quotient_eq_mul_place num hden]
      refine mul_le_mul_of_nonneg_right ?_ (by positivity)
      exact_mod_cast hplace.resolve_left (by omega)
    obtain ⟨hnear, -⟩ := nearest_multiple num hden (2 ^ 52)
    have hfarther : |((2 ^ 52 : Nat) : ℚ) * 2 ^ lastPlace num den - num / den| < |(S : ℚ) * 2 ^ j - num / den| := by
      rw [abs_of_nonpos (sub_nonpos.mpr habove), abs_of_nonpos (sub_nonpos.mpr (hbelow.le.trans habove))]
      exact neg_lt_neg (sub_lt_sub_right hbelow _)
    exact ⟨(hnear.trans_lt hfarther).le, fun heq => absurd heq (hnear.trans_lt hfarther).ne⟩

/-- The overflow threshold, half a last place above the largest finite number: 2^2098 − 2^2044 units. -/
theorem rounded_lt_inf_iff : lastPlace num den * 2 ^ 52 + roundedSignificand num den < 2047 * 2 ^ 52 ↔
    (num : ℚ) / den < (2 ^ 54 - 1) * 2 ^ 2044 := by
  obtain ⟨hm, hplace⟩ := roundedSignificand_bounds num den
  obtain ⟨hhalf, htie⟩ := roundedSignificand_half num hden
  obtain ⟨hlt, hge⟩ := quotient_bounds num hden
  rw [quotient_eq_mul_place num hden]
  generalize (num : ℚ) / (den <<< lastPlace num den : Nat) = q at hhalf htie hlt hge
  generalize roundedSignificand num den = m at hm hplace hhalf htie
  generalize lastPlace num den = e at hplace hge
  have hscale : (0 : ℚ) < 2 ^ 2044 := by positivity
  rcases Nat.lt_trichotomy e 2045 with hsmall | rfl | hlarge
  · refine iff_of_true (by omega) ?_
    calc q * 2 ^ e < 2 ^ 53 * 2 ^ e := mul_lt_mul_of_pos_right hlt (by positivity)
      _ ≤ 2 ^ 53 * 2 ^ 2044 := mul_le_mul_of_nonneg_left (pow_le_pow_right₀ one_le_two (by omega)) (by positivity)
      _ ≤ (2 ^ 54 - 1) * 2 ^ 2044 := mul_le_mul_of_nonneg_right (by norm_num) hscale.le
  · rw [pow_succ' (2 : ℚ) 2044, ← mul_assoc, mul_lt_mul_iff_left₀ hscale]
    obtain ⟨hbelow, habove⟩ := abs_le.mp hhalf
    have hm' : (m : ℚ) ≤ 2 ^ 53 := mod_cast hm
    refine ⟨fun h => ?_, fun h => ?_⟩
    · by_contra hover
      have hlast : m = 2 ^ 53 - 1 := by
        have hle : (2 ^ 53 - 1 : ℚ) ≤ m := by linarith
        have hle' : 2 ^ 53 ≤ m + 1 := by exact_mod_cast (by linarith : (2 ^ 53 : ℚ) ≤ m + 1)
        omega
      subst hlast
      have heven := htie (le_antisymm hhalf (by rw [abs_sub_comm]; refine le_trans ?_ (le_abs_self _); push_cast; linarith))
      omega
    · have hlt' : m < 2 ^ 53 := by exact_mod_cast (by linarith : (m : ℚ) < 2 ^ 53)
      omega
  · refine iff_of_false (by omega) (not_lt.mpr ?_)
    calc (2 ^ 54 - 1) * 2 ^ 2044 ≤ (2 : ℚ) ^ 54 * 2 ^ 2044 := mul_le_mul_of_nonneg_right (by norm_num) hscale.le
      _ = 2 ^ 52 * 2 ^ (2044 + 2) := by
        rw [pow_add]
        generalize (2 : ℚ) ^ 2044 = c
        ring
      _ ≤ q * 2 ^ e := mul_le_mul (hge.resolve_left (by omega)) (pow_le_pow_right₀ one_le_two hlarge) (by positivity)
        (by linarith [hge.resolve_left (by omega)])

end

/-! ## Values -/

/-- The factor of a sign. -/
def signFactor (sg : Bool) : ℚ := if sg then -1 else 1

theorem abs_signFactor (sg : Bool) : |signFactor sg| = 1 := by
  cases sg <;> simp [signFactor]

theorem signFactor_div (sg sg' : Bool) : signFactor sg / signFactor sg' = signFactor (sg != sg') := by
  cases sg <;> cases sg' <;> norm_num [signFactor]

theorem f64Value_eq (x : F64) : f64Value x = signFactor (f64Sign x) * ((f64Units x : ℚ) / 2 ^ 1074) := rfl

theorem f64Significand_lt (x : F64) : f64Significand x < 2 ^ 53 := by
  have hfraction : f64Fraction x < 2 ^ 52 := BitVec.isLt _
  unfold f64Significand
  split <;> omega

theorem f64Units_cast (x : F64) : (f64Units x : ℚ) = f64Significand x * 2 ^ f64Shift x := by
  rw [f64Units, Nat.cast_mul, Nat.cast_pow, Nat.cast_ofNat]

theorem f64Significand_eq_zero_iff (x : F64) : f64Significand x = 0 ↔ isZero x = true := by
  simp only [f64Significand, isZero, Bool.and_eq_true, beq_iff_eq]
  split <;> omega

section
variable {x : F64} {sg : Bool} {q : ℚ}

theorem abs_value_sub_of_sign (hsign : f64Sign x = sg) :
    |f64Value x - signFactor sg * (q / 2 ^ 1074)| = |f64Units x - q| / 2 ^ 1074 := by
  rw [f64Value_eq, hsign, ← mul_sub, ← sub_div, abs_mul, abs_signFactor, one_mul, abs_div,
    abs_of_pos (by positivity : (0 : ℚ) < 2 ^ 1074)]

theorem abs_value_sub_of_other_sign (hsign : f64Sign x ≠ sg) (hq : 0 ≤ q) :
    |f64Value x - signFactor sg * (q / 2 ^ 1074)| = (f64Units x + q) / 2 ^ 1074 := by
  have hopposite : signFactor sg = -signFactor (f64Sign x) := by
    cases h : f64Sign x <;> cases sg <;> simp_all [signFactor]
  have hsum : (0 : ℚ) ≤ f64Units x + q := by positivity
  rw [f64Value_eq, hopposite, neg_mul, sub_neg_eq_add, ← mul_add, ← add_div, abs_mul, abs_signFactor, one_mul, abs_div,
    abs_of_nonneg hsum, abs_of_pos (by positivity : (0 : ℚ) < 2 ^ 1074)]

end

section
variable {num den : Nat} {sg : Bool}

theorem abs_rounded_sub (h : isFinite (rounded sg num den) = true) :
    |f64Value (rounded sg num den) - signFactor sg * ((num : ℚ) / den / 2 ^ 1074)| =
      |(roundedSignificand num den : ℚ) * 2 ^ lastPlace num den - num / den| / 2 ^ 1074 := by
  rw [abs_value_sub_of_sign (f64Sign_rounded sg num den), f64Units_rounded h, Nat.cast_mul, Nat.cast_pow, Nat.cast_ofNat]

/-- A finite rounded pattern is the nearest of all, and even where another is as near. -/
theorem rounded_nearest (hden : 0 < den) (h : isFinite (rounded sg num den) = true) (x : F64) :
    |f64Value (rounded sg num den) - signFactor sg * ((num : ℚ) / den / 2 ^ 1074)| ≤
        |f64Value x - signFactor sg * ((num : ℚ) / den / 2 ^ 1074)| ∧
      (|f64Value (rounded sg num den) - signFactor sg * ((num : ℚ) / den / 2 ^ 1074)| =
          |f64Value x - signFactor sg * ((num : ℚ) / den / 2 ^ 1074)| →
        f64Value x ≠ f64Value (rounded sg num den) → f64Fraction (rounded sg num den) % 2 = 0) := by
  have hq : (0 : ℚ) ≤ num / den := by positivity
  have hunit : (0 : ℚ) < 2 ^ 1074 := by positivity
  rw [abs_rounded_sub h]
  by_cases hsign : f64Sign x = sg
  · obtain ⟨hnear, htie⟩ := nearest num hden (f64Significand_lt x) (f64Shift x)
    rw [abs_value_sub_of_sign hsign, f64Units_cast, div_le_div_iff_of_pos_right hunit, div_left_inj' hunit.ne']
    refine ⟨hnear, fun heq hne => f64Fraction_rounded h (htie heq fun hsame => hne ?_)⟩
    rw [f64Value_eq, f64Value_eq, f64Sign_rounded, hsign, f64Units_rounded h, f64Units_cast, hsame, Nat.cast_mul, Nat.cast_pow,
      Nat.cast_ofNat]
  · obtain ⟨hnear, htie⟩ := nearest num hden (S := 0) (by positivity) 0
    rw [Nat.cast_zero, zero_mul, zero_sub, abs_neg, abs_of_nonneg hq] at hnear htie
    have hunits : (0 : ℚ) ≤ f64Units x := Nat.cast_nonneg _
    rw [abs_value_sub_of_other_sign hsign hq, div_le_div_iff_of_pos_right hunit, div_left_inj' hunit.ne']
    refine ⟨by linarith, fun heq _ => f64Fraction_rounded h ?_⟩
    by_cases hzero : roundedSignificand num den = 0
    · rw [hzero]
    · refine htie (le_antisymm hnear (by linarith)) (ne_of_lt ?_)
      have hpos : (0 : ℚ) < roundedSignificand num den := Nat.cast_pos.mpr (Nat.pos_of_ne_zero hzero)
      positivity

end

/-! ## Integers and quotients -/

theorem roundMagnitude_zero {den : Nat} (hden : 0 < den) : roundMagnitude 0 den = 0 := by
  simp [roundMagnitude, lastPlace, roundQuotient, hden]

theorem f64OfInt_eq_rounded (i : Int) : f64OfInt i = rounded (decide (i < 0)) (i.natAbs * 2 ^ 1074) 1 := by
  rw [f64OfInt, rounded, ← Nat.shiftLeft_eq]
  split
  case isTrue hzero => rw [hzero, Int.natAbs_zero, Nat.zero_shiftLeft, roundMagnitude_zero one_pos]
  case isFalse => rfl

theorem signFactor_mul_natAbs (i : Int) : signFactor (decide (i < 0)) * (i.natAbs : ℚ) = i := by
  rw [Nat.cast_natAbs]
  rcases lt_or_ge i 0 with hneg | hnonneg
  · rw [decide_eq_true hneg, abs_of_neg hneg]
    simp [signFactor]
  · rw [decide_eq_false hnonneg.not_gt, abs_of_nonneg hnonneg]
    simp [signFactor]

/-- An integer of magnitude up to 2^53 has a significand of 53 bits. -/
theorem exists_significand {n : Nat} (h : n ≤ 2 ^ 53) : ∃ S j : Nat, S < 2 ^ 53 ∧ (n : ℚ) * 2 ^ 1074 = S * 2 ^ j := by
  rcases Nat.lt_or_eq_of_le h with hlt | rfl
  · exact ⟨n, 1074, hlt, rfl⟩
  · refine ⟨2 ^ 52, 1074 + 1, by omega, ?_⟩
    rw [pow_succ (2 : ℚ) 1074]
    generalize (2 : ℚ) ^ 1074 = c
    push_cast
    ring

/-- Settles O13: an integer of at most 53 bits is one of the numbers, so the nearest to it is itself. -/
theorem integersConvertExactly : Obligations.IntegersConvertExactly := by
  intro i hi
  have hunit : (2 ^ 1074 : ℚ) ≠ 0 := pow_ne_zero _ two_ne_zero
  have hquotient : ((i.natAbs * 2 ^ 1074 : Nat) : ℚ) / (1 : Nat) = i.natAbs * 2 ^ 1074 := by
    rw [Nat.cast_one, div_one, Nat.cast_mul, Nat.cast_pow, Nat.cast_ofNat]
  rw [f64OfInt_eq_rounded]
  have hfinite : isFinite (rounded (decide (i < 0)) (i.natAbs * 2 ^ 1074) 1) = true := by
    rw [isFinite_rounded_iff, rounded_lt_inf_iff _ one_pos, hquotient]
    calc (i.natAbs : ℚ) * 2 ^ 1074 ≤ 2 ^ 53 * 2 ^ 2044 :=
          mul_le_mul (by exact_mod_cast hi) (pow_le_pow_right₀ one_le_two (by omega)) (by positivity) (by positivity)
      _ < (2 ^ 54 - 1) * 2 ^ 2044 := mul_lt_mul_of_pos_right (by norm_num) (by positivity)
  refine ⟨hfinite, ?_⟩
  obtain ⟨S, j, hS, hsame⟩ := exists_significand hi
  obtain ⟨hnear, -⟩ := nearest (i.natAbs * 2 ^ 1074) one_pos hS j
  rw [← hsame, hquotient, sub_self, abs_zero] at hnear
  have hexact := abs_rounded_sub hfinite
  rw [hquotient, le_antisymm hnear (abs_nonneg _), zero_div, abs_eq_zero, mul_div_cancel_right₀ _ hunit,
    signFactor_mul_natAbs, sub_eq_zero] at hexact
  exact hexact

theorem f64Units_eq_zero {x : F64} (h : isZero x = true) : f64Units x = 0 := by
  rw [f64Units, (f64Significand_eq_zero_iff x).mpr h, Nat.zero_mul]

theorem f64Units_pos {x : F64} (h : isZero x = false) : 0 < f64Units x := by
  have hsig : f64Significand x ≠ 0 := by
    rw [Ne, f64Significand_eq_zero_iff, h]
    exact Bool.false_ne_true
  exact Nat.mul_pos (Nat.pos_of_ne_zero hsig) (by positivity)

theorem shiftLeft_eq_f64Units (x : F64) : f64Significand x <<< f64Shift x = f64Units x := Nat.shiftLeft_eq _ _

/-- The division of finite numbers rounds the quotient of their magnitudes. -/
theorem fdiv_eq_rounded {a b : F64} (ha : isFinite a = true) (hb : isFinite b = true) (hzero : isZero b = false) :
    fdiv a b = rounded (f64Sign a != f64Sign b) (f64Units a * 2 ^ 1074) (f64Units b) := by
  obtain ⟨hnan, hinf⟩ := not_isNaN_of_finite ha
  obtain ⟨hnan', hinf'⟩ := not_isNaN_of_finite hb
  have hdiv : fdiv a b = fdivFinite a b := by
    simp [fdiv, hnan, hnan', hinf, hinf', hzero]
  rw [hdiv, fdivFinite, rounded, ← Nat.shiftLeft_eq]
  cases h : isZero a with
  | true => rw [if_pos rfl, f64Units_eq_zero h, Nat.zero_shiftLeft, roundMagnitude_zero (f64Units_pos hzero)]
  | false => rw [if_neg Bool.false_ne_true, shiftLeft_eq_f64Units, shiftLeft_eq_f64Units]

theorem value_div_value (a b : F64) : f64Value a / f64Value b =
    signFactor (f64Sign a != f64Sign b) * (((f64Units a * 2 ^ 1074 : Nat) : ℚ) / (f64Units b : Nat) / 2 ^ 1074) := by
  have hunit : (2 ^ 1074 : ℚ) ≠ 0 := pow_ne_zero _ two_ne_zero
  rw [f64Value_eq, f64Value_eq, mul_div_mul_comm, signFactor_div, div_div_div_cancel_right₀ hunit, Nat.cast_mul, Nat.cast_pow,
    Nat.cast_ofNat, mul_div_right_comm, mul_div_cancel_right₀ _ hunit]

/-- The threshold in units of 2^−1074. -/
theorem threshold_units (q : ℚ) : q / 2 ^ 1074 < 2 ^ 1024 - 2 ^ 970 ↔ q < (2 ^ 54 - 1) * 2 ^ 2044 := by
  have hthreshold : ((2 : ℚ) ^ 1024 - 2 ^ 970) * 2 ^ 1074 = (2 ^ 54 - 1) * 2 ^ 2044 := by
    rw [sub_mul, ← pow_add, ← pow_add, sub_mul, ← pow_add, one_mul]
  rw [div_lt_iff₀ (by positivity), hthreshold]

/-- Settles O14: the division is a rounded quotient, and no number of 53 bits is nearer to it. -/
theorem divisionRoundsToNearestEven : Obligations.DivisionRoundsToNearestEven := by
  intro a b ha hb hzero
  have hden := f64Units_pos hzero
  rw [fdiv_eq_rounded ha hb hzero, value_div_value]
  refine ⟨f64Sign_rounded _ _ _, isNaN_rounded _ _ _, ?_, fun hfinite x _ => rounded_nearest hden hfinite x⟩
  have hquotient : (0 : ℚ) ≤ ((f64Units a * 2 ^ 1074 : Nat) : ℚ) / (f64Units b : Nat) / 2 ^ 1074 :=
    div_nonneg (div_nonneg (Nat.cast_nonneg _) (Nat.cast_nonneg _)) (by positivity)
  rw [isFinite_rounded_iff, rounded_lt_inf_iff _ hden, abs_mul, abs_signFactor, one_mul, abs_of_nonneg hquotient, threshold_units]

end Sys2Proof.Machine
end
